-- ==== Sys2Proof/Word.lean ====
section
/-! DEFINITION. The word type: every datum of the block is one byte (00_scope.md R9, R14). -/

namespace Sys2Proof

/-- A byte, unsigned 0 to 255 (R14); its `+` and `-` are `+8` and `-8` of that rule. -/
abbrev Byte := BitVec 8

end Sys2Proof
end

