-- ==== Sys2Proof/Config.lean ====
section
/-! DEFINITION. What is fixed for the machine: the constants of 00_scope.md R7, the parameters of R8, the codes'
names, and the free values of what the spec leaves open (93_implementation_defined.md). -/

namespace Sys2Proof

/-- `R_KIND`: how an operation ended (10_state.md R27). -/
inductive Kind where
  | none
  | ack
  | data
  | err
  deriving DecidableEq, Repr

/-- `R_ERR`: the error codes of 60_exceptions.md R210. Codes 11 to 15 are never written and have no name here (U13). -/
inductive ErrCode where
  | none
  | tx
  | rx
  | lcs
  | dcs
  | postamble
  | direction
  | frameLen
  | payload
  | timeout
  | badOp
  deriving DecidableEq, Repr

/-- One event of the RX source (20_memory.md R52). -/
inductive RxEvent where
  | byte (b : Byte)
  | err
  deriving DecidableEq, Repr, Inhabited

/-- How the RX stream goes on after the events that wait (00_scope.md R11, 20_memory.md R54). `silent`: the source answers
no further request. `endless k`: it answers every request for ever, its next answer being the one numbered `k` of a
sequence that nothing fixes (`Config.freeRxEvent`). -/
inductive RxSource where
  | silent
  | endless (k : Nat)
  deriving DecidableEq, Repr

/-- The TX sink's answer to a frame write (20_memory.md R57). `fail n`: at most the first `n` bytes of the frame have
gone out, so that every proper or whole `List.take` of the frame is some answer (U4). -/
inductive TxAnswer where
  | ok
  | fail (n : Nat)
  deriving DecidableEq, Repr, Inhabited

/-- What ends a frame write: the sink's answer, or the reset input striking while the frame is being written, which
cuts the frame after at most `n` bytes (70_reset_and_hazards.md R241, U19). -/
inductive TxEvent where
  | answer (a : TxAnswer)
  | cut (n : Nat)
  deriving DecidableEq, Repr

namespace Config

/-! ### Constants (00_scope.md R7) -/

def preamble : Byte := 0x00
def start1 : Byte := 0x00
def start2 : Byte := 0xFF
def postamble : Byte := 0x00
def tfiOut : Byte := 0xD4
def tfiIn : Byte := 0xD5
def cmdDataExchange : Byte := 0x40

/-- Largest command payload `ENCODE` accepts. -/
def maxPayload : Nat := 253
/-- Capacity of `R_DATA` and `FD`. -/
def dataCap : Nat := 255
/-- Longest frame on the wire, the capacity of `TXB`. -/
def maxFrame : Nat := 262
/-- The status byte is dropped only when more than this many data bytes remain. -/
def quirkMin : Nat := 14

/-! ### Parameters (00_scope.md R8) -/

/-- `QUIRK_BASIS`: which length is compared with `QUIRK_MIN`. -/
inductive Basis where
  | a
  | b
  deriving DecidableEq, Repr

/-- The named parameters. `maxFrames = none` is `INF`. -/
structure Params where
  cmdCommThru : Byte
  statusSuccess : Byte
  quirkBasis : Basis
  hasDemux : Bool
  maxFrames : Option Nat
  deriving DecidableEq, Repr

/-- The spec's defaults (R8). -/
def defaults : Params where
  cmdCommThru := 0x42
  statusSuccess := 0x00
  quirkBasis := .a
  hasDemux := true
  maxFrames := none

/-! ### Free values

Nothing in Lean can say what these are. Each is applied to the counter `State.draws`, which every draw advances, and
`freeRxEvent` to the source's own position (log entry 6). -/

/-- A byte the spec calls unspecified or a draw. -/
opaque freeByte : Nat → Byte
/-- An unspecified content of the 9-bit counter `IDX`. -/
opaque freeIdx : Nat → BitVec 9
/-- An unspecified content of the frame counter `FRAMES`. -/
opaque freeFrames : Nat → Nat
/-- The events of an endless RX source, in order (00_scope.md R11, U5): any infinite sequence. -/
opaque freeRxEvent : Nat → RxEvent
/-- The TX sink's answer where the state lists none (R57, U5). -/
opaque freeTxAnswer : Nat → TxAnswer

end Config

end Sys2Proof
end

