-- ==== Sys2Proof/Machine/Flags.lean ====
section
/-! DEFINITION. The block has no flags (10_state.md R37). What decides an outcome are its checksums and tests
(30_encoding.md R86 to R88), and what says it are the codes of `R_KIND` and `R_ERR`: both stand here. -/

namespace Sys2Proof.Machine

/-- `sum8` (00_scope.md R15): the sum of all bytes, reduced mod 256; carries out of bit 7 are lost (R37, R88). -/
def sum8 : List Byte → Byte
  | [] => 0
  | b :: bs => b + sum8 bs

/-- The length byte of a frame with `n` bytes after TFI and command byte: `2 + n` (R86). -/
def lenOf (n : Nat) : Byte := BitVec.ofNat 8 (2 + n)

/-- The one byte `LCS` with `LEN +8 LCS = 0` (R87). -/
def lcsOf (len : Byte) : Byte := 0 - len

/-- The one byte `DCS` with `sum8 FD +8 DCS = 0` (R88): 0x00, not 256, when the sum is 0. -/
def dcsOf (fd : List Byte) : Byte := 0 - sum8 fd

/-- The length-checksum test (41_decode.md R131). -/
def lcsGood (len lcs : Byte) : Bool := len + lcs == 0

/-- The data-checksum test over the frame data `fd` (41_decode.md R132). -/
def dcsGood (fd : List Byte) (d : Byte) : Bool := sum8 fd + d == 0

/-- `QuirkLen(LEN)` for `LEN = n` (41_decode.md R138): what "remaining payload" counts. -/
def quirkLen (basis : Config.Basis) (n : Nat) : Nat :=
  match basis with
  | .a => n - 2
  | .b => n - 3

/-- A command whose response carries an explicit status byte (30_encoding.md R90). -/
def statusBearing (thru cmd : Byte) : Bool := cmd == Config.cmdDataExchange || cmd == thru

/-- The code of `R_KIND` (10_state.md R27). -/
def kindCode : Kind → BitVec 2
  | .none => 0
  | .ack => 1
  | .data => 2
  | .err => 3

/-- The code of `R_ERR` (60_exceptions.md R210). -/
def errCode : ErrCode → BitVec 4
  | .none => 0
  | .tx => 1
  | .rx => 2
  | .lcs => 3
  | .dcs => 4
  | .postamble => 5
  | .direction => 6
  | .frameLen => 7
  | .payload => 8
  | .timeout => 9
  | .badOp => 10

end Sys2Proof.Machine
end

