-- ==== Sys2Proof/Syntax.lean ====
section
/-! DEFINITION. The instructions: one constructor for every row of spec/opcode_table.json (log entry 7). -/

namespace Sys2Proof

/-- The rows of the table, format by format. Operands are what the row leaves open: a frame's start codes where the
decoder does not test them (R99), its command byte and further bytes, an opaque command id, an error code. -/
inductive Instr where
  -- format op: the operation select (30_encoding.md R101)
  | nop
  | encode
  | decode
  | sendwait
  -- format frame (R83, R84, R85)
  | frameOutData (c : Byte) (p : List Byte)
  | frameInData (s1 s2 e : Byte) (q : List Byte)
  | frameAck (s1 s2 : Byte)
  -- format class: the ordered classification (R94)
  | class1
  | class2
  | class3
  | class4
  | class5
  | class6
  | class7
  | class8
  -- format cmdid (R90, R92)
  | cmdDataExchange
  | cmdCommThru
  | cmdOther (c : Byte)
  -- format kind: the outcome kinds (10_state.md R27)
  | kindNone
  | kindAck
  | kindData
  | kindErr (e : ErrCode)
  -- format error: the error codes (60_exceptions.md R210)
  | errNone
  | errTx
  | errRx
  | errLcs
  | errDcs
  | errPostamble
  | errDirection
  | errFrameLen
  | errPayload
  | errTimeout
  | errBadOp
  deriving DecidableEq, Repr

end Sys2Proof
end

