-- ==== Sys2Proof/WellFormed.lean ====
section
/-! DEFINITION. Which instruction terms are rows of the table: the bounds the spec puts on their operands. -/

namespace Sys2Proof

/-- `thru` is the parameter `CMD_COMM_THRU`. A data frame carries at most 253 bytes after its command byte (R84, R85);
the communicate-through id is a second id only where it differs from `InDataExchange`; an "other" id is neither of
the two (R92); an error outcome has a code other than `E_NONE` (R210). -/
def wellFormed (thru : Byte) : Instr → Bool
  | .frameOutData _ p => decide (p.length ≤ Config.maxPayload)
  | .frameInData _ _ _ q => decide (q.length ≤ Config.maxPayload)
  | .cmdCommThru => decide (thru ≠ Config.cmdDataExchange)
  | .cmdOther c => decide (c ≠ Config.cmdDataExchange ∧ c ≠ thru)
  | .kindErr e => decide (e ≠ .none)
  | .nop | .encode | .decode | .sendwait => true
  | .frameAck _ _ => true
  | .class1 | .class2 | .class3 | .class4 | .class5 | .class6 | .class7 | .class8 => true
  | .cmdDataExchange => true
  | .kindNone | .kindAck | .kindData => true
  | .errNone | .errTx | .errRx | .errLcs | .errDcs | .errPostamble | .errDirection | .errFrameLen => true
  | .errPayload | .errTimeout | .errBadOp => true

end Sys2Proof
end

