-- ==== Sys2Proof/Decode.lean ====
section
/-! DEFINITION. The decoder and the encoder of the table's rows.

The table is no one code space: a row's format says where its bits stand (30_encoding.md R104), so the decoder takes
the format, and its bytes are a byte wide register (`op`, `cmdid`, `kind`, `error`), a row number (`class`) or a frame
on the wire (`frame`). It is total on any bytes and rejects by name. -/

namespace Sys2Proof

/-- The six formats of spec/opcode_table.json (R104). -/
inductive Format where
  | op
  | frame
  | cls
  | cmdid
  | kind
  | error
  deriving DecidableEq, Repr

/-- Why bytes are no row of a format. -/
inductive Reject where
  | truncated      -- fewer bytes than the row needs
  | opRange        -- `OP` has two bits
  | noPreamble     -- the first byte of a frame is not 0x00
  | lengthChecksum
  | dataChecksum
  | postamble
  | direction      -- TFI is neither 0xD4 nor 0xD5
  | frameLength    -- `LEN = 1`
  | startCodes     -- an outbound frame has start codes 00 FF
  | classRow       -- the classification has rows 1 to 8
  | kindRange      -- `R_KIND` has two bits
  | errorRange     -- error codes 11 and above are not used
  | errorNone      -- an error outcome without a code
  deriving DecidableEq, Repr

/-- Which format a row has. -/
def formatOf : Instr → Format
  | .nop | .encode | .decode | .sendwait => .op
  | .frameOutData _ _ | .frameInData _ _ _ _ | .frameAck _ _ => .frame
  | .class1 | .class2 | .class3 | .class4 | .class5 | .class6 | .class7 | .class8 => .cls
  | .cmdDataExchange | .cmdCommThru | .cmdOther _ => .cmdid
  | .kindNone | .kindAck | .kindData | .kindErr _ => .kind
  | .errNone | .errTx | .errRx | .errLcs | .errDcs | .errPostamble | .errDirection | .errFrameLen => .error
  | .errPayload | .errTimeout | .errBadOp => .error

/-! ### Decoding -/

/-- The operation select (30_encoding.md R101). -/
def decodeOp (op : BitVec 2) : Instr :=
  match op.toNat with
  | 0 => .nop
  | 1 => .encode
  | 2 => .decode
  | _ => .sendwait

/-- The class of a command id (30_encoding.md R90, R92); `thru` is the parameter `CMD_COMM_THRU`. -/
def decodeCmdId (thru b : Byte) : Instr :=
  if b = Config.cmdDataExchange then .cmdDataExchange
  else if b = thru then .cmdCommThru
  else .cmdOther b

/-- The rows of the classification by number (30_encoding.md R94). -/
def decodeClass (b : Byte) : Except Reject Instr :=
  match b.toNat with
  | 1 => .ok .class1
  | 2 => .ok .class2
  | 3 => .ok .class3
  | 4 => .ok .class4
  | 5 => .ok .class5
  | 6 => .ok .class6
  | 7 => .ok .class7
  | 8 => .ok .class8
  | _ => .error .classRow

/-- The codes of `R_ERR` (60_exceptions.md R210). -/
def decodeErrCode (b : Byte) : Except Reject ErrCode :=
  match b.toNat with
  | 0 => .ok .none
  | 1 => .ok .tx
  | 2 => .ok .rx
  | 3 => .ok .lcs
  | 4 => .ok .dcs
  | 5 => .ok .postamble
  | 6 => .ok .direction
  | 7 => .ok .frameLen
  | 8 => .ok .payload
  | 9 => .ok .timeout
  | 10 => .ok .badOp
  | _ => .error .errorRange

/-- The row of an error code. -/
def errRow : ErrCode → Instr
  | .none => .errNone
  | .tx => .errTx
  | .rx => .errRx
  | .lcs => .errLcs
  | .dcs => .errDcs
  | .postamble => .errPostamble
  | .direction => .errDirection
  | .frameLen => .errFrameLen
  | .payload => .errPayload
  | .timeout => .errTimeout
  | .badOp => .errBadOp

/-- An outcome kind; `ERR` is followed by its error code (10_state.md R27, 60_exceptions.md R210). -/
def decodeKind : List Byte → Except Reject (Instr × List Byte)
  | [] => .error .truncated
  | b :: rest =>
    match b.toNat with
    | 0 => .ok (.kindNone, rest)
    | 1 => .ok (.kindAck, rest)
    | 2 => .ok (.kindData, rest)
    | 3 =>
      match rest with
      | [] => .error .truncated
      | e :: rest' =>
        match decodeErrCode e with
        | .error r => .error r
        | .ok .none => .error .errorNone
        | .ok c => .ok (.kindErr c, rest')
    | _ => .error .kindRange

/-- The row of a data frame with frame data `fd`: TFI 0xD5 is inbound (30_encoding.md R85), 0xD4 outbound (R84, R96). -/
def decodeFrameData (s1 s2 : Byte) : List Byte → Except Reject Instr
  | [] => .error .frameLength
  | [tfi] => if tfi = Config.tfiIn ∨ tfi = Config.tfiOut then .error .frameLength else .error .direction
  | tfi :: x :: more =>
    if tfi = Config.tfiIn then .ok (.frameInData s1 s2 x more)
    else if tfi = Config.tfiOut then
      if s1 = Config.start1 ∧ s2 = Config.start2 then .ok (.frameOutData x more) else .error .startCodes
    else .error .direction

/-- A frame on the wire (30_encoding.md R82), and the bytes after it. Its tests stand in the decoder's order (R94). -/
def decodeFrame : List Byte → Except Reject (Instr × List Byte)
  | pre :: s1 :: s2 :: len :: lcs :: body =>
    if pre ≠ Config.preamble then .error .noPreamble
    else if body.length < len.toNat then .error .truncated
    else if Machine.lcsGood len lcs = false then .error .lengthChecksum
    else if len = 0 then
      match body with
      | [] => .error .truncated
      | post :: rest => if post = Config.postamble then .ok (.frameAck s1 s2, rest) else .error .postamble
    else
      match body.drop len.toNat with
      | [] => .error .truncated
      | d :: after =>
        if Machine.dcsGood (body.take len.toNat) d = false then .error .dataChecksum
        else
          match after with
          | [] => .error .truncated
          | post :: rest =>
            if post ≠ Config.postamble then .error .postamble
            else
              match decodeFrameData s1 s2 (body.take len.toNat) with
              | .error r => .error r
              | .ok i => .ok (i, rest)
  | _ => .error .truncated

/-- The decoder: the row of format `f` that the bytes begin with, and the bytes after it. -/
def decode (thru : Byte) (f : Format) (bs : List Byte) : Except Reject (Instr × List Byte) :=
  match f with
  | .frame => decodeFrame bs
  | .kind => decodeKind bs
  | .op =>
    match bs with
    | [] => .error .truncated
    | b :: rest => if b.toNat < 4 then .ok (decodeOp (b.setWidth 2), rest) else .error .opRange
  | .cls =>
    match bs with
    | [] => .error .truncated
    | b :: rest =>
      match decodeClass b with
      | .error r => .error r
      | .ok i => .ok (i, rest)
  | .cmdid =>
    match bs with
    | [] => .error .truncated
    | b :: rest => .ok (decodeCmdId thru b, rest)
  | .error =>
    match bs with
    | [] => .error .truncated
    | b :: rest =>
      match decodeErrCode b with
      | .error r => .error r
      | .ok e => .ok (errRow e, rest)

/-! ### Encoding -/

/-- `FRAME(t, x, [Q])` of 30_encoding.md R103 with given start codes: the frame of R82 with TFI `t`, second byte `x`
and further bytes `q`. -/
def frameBytes (s1 s2 t x : Byte) (q : List Byte) : List Byte :=
  [Config.preamble, s1, s2, Machine.lenOf q.length, Machine.lcsOf (Machine.lenOf q.length), t, x] ++ q ++
    [Machine.dcsOf (t :: x :: q), Config.postamble]

/-- `EncodeFrame(c, P)` (40_encode.md R112), which is `CMDF(c, [P])` of R103. -/
def encodeFrame (c : Byte) (p : List Byte) : List Byte :=
  frameBytes Config.start1 Config.start2 Config.tfiOut c p

/-- The acknowledgement frame (30_encoding.md R83); its `LCS` is 0x00. -/
def ackBytes (s1 s2 : Byte) : List Byte :=
  [Config.preamble, s1, s2, 0, Machine.lcsOf 0, Config.postamble]

/-- The encoder: the bytes of a row in its format. -/
def encode (thru : Byte) : Instr → List Byte
  | .nop => [0x00]
  | .encode => [0x01]
  | .decode => [0x02]
  | .sendwait => [0x03]
  | .frameOutData c p => encodeFrame c p
  | .frameInData s1 s2 e q => frameBytes s1 s2 Config.tfiIn e q
  | .frameAck s1 s2 => ackBytes s1 s2
  | .class1 => [1]
  | .class2 => [2]
  | .class3 => [3]
  | .class4 => [4]
  | .class5 => [5]
  | .class6 => [6]
  | .class7 => [7]
  | .class8 => [8]
  | .cmdDataExchange => [Config.cmdDataExchange]
  | .cmdCommThru => [thru]
  | .cmdOther c => [c]
  | .kindNone => [(Machine.kindCode .none).setWidth 8]
  | .kindAck => [(Machine.kindCode .ack).setWidth 8]
  | .kindData => [(Machine.kindCode .data).setWidth 8]
  | .kindErr e => [(Machine.kindCode .err).setWidth 8, (Machine.errCode e).setWidth 8]
  | .errNone => [(Machine.errCode .none).setWidth 8]
  | .errTx => [(Machine.errCode .tx).setWidth 8]
  | .errRx => [(Machine.errCode .rx).setWidth 8]
  | .errLcs => [(Machine.errCode .lcs).setWidth 8]
  | .errDcs => [(Machine.errCode .dcs).setWidth 8]
  | .errPostamble => [(Machine.errCode .postamble).setWidth 8]
  | .errDirection => [(Machine.errCode .direction).setWidth 8]
  | .errFrameLen => [(Machine.errCode .frameLen).setWidth 8]
  | .errPayload => [(Machine.errCode .payload).setWidth 8]
  | .errTimeout => [(Machine.errCode .timeout).setWidth 8]
  | .errBadOp => [(Machine.errCode .badOp).setWidth 8]

/-! ### The table's own numbering of bits -/

/-- The `n` low bytes of `w`, the lowest first: bit 0 of the table is the least significant bit of the first byte. -/
def wordBytes : Nat → Nat → List Byte
  | 0, _ => []
  | n + 1, w => BitVec.ofNat 8 w :: wordBytes n (w / 256)

/-- The table gives no code space common to its formats (R104). A word of at most one byte is read as the operation
select while it fits its two bits, since operations are what the host starts (R101), and as a command id above
(R92, default `CMD_COMM_THRU`); a longer word is the beginning of a frame, zeros after it (log entry 9). -/
def decodeTableWord (nbits w : Nat) : Option Instr :=
  if nbits ≤ 8 then
    if w < 4 then some (decodeOp (BitVec.ofNat 2 w))
    else if w < 256 then some (decodeCmdId Config.defaults.cmdCommThru (BitVec.ofNat 8 w))
    else none
  else
    match decodeFrame (wordBytes Config.maxFrame (w % 2 ^ nbits)) with
    | .ok (i, _) => some i
    | .error _ => none

end Sys2Proof
end

