-- ==== Sys2Proof/Machine/State.lean ====
section
/-! DEFINITION. The state: every register of 10_state.md R20, the two streams of 20_memory.md R50, and the model's own
fields for the other agents (log entries 2 to 6). Plain data throughout. -/

namespace Sys2Proof.Machine

/-- `DSTATE`, the decoder's sequencing state (42_decode_fsm.md R150). The codes 6 and 7 are never reached (R162) and
have no name. -/
inductive DState where
  | idle
  | sync
  | hdr
  | body
  | dcs
  | post
  deriving DecidableEq, Repr

/-- `XSTATE`, the demultiplexer's sequencing state (43_dispatch.md R176). -/
inductive XState where
  | idle
  | send
  | wait
  deriving DecidableEq, Repr

/-- The registers the host can read (20_memory.md R58). -/
inductive HostReg where
  | busy
  | done
  | rKind
  | rErr
  | rValid
  | rCmd
  | rStatus
  | rLen
  | rData (i : Fin 255)
  deriving DecidableEq, Repr

/-- What the host can do at its port (20_memory.md R58, 70_reset_and_hazards.md R241, R250). -/
inductive HostAct where
  | writeOp (v : BitVec 2)
  | writeCmd (v : Byte)
  | writePlen (v : Byte)
  | writePay (i : Fin 253) (v : Byte)
  | start
  | read (r : HostReg)
  | reset
  deriving DecidableEq, Repr

/-- Whose move is next, and what it is (00_scope.md R10). `fce`: the block moves. `await`: the host polls `DONE`, and
the block moves while `BUSY = 1`. `host`: the host acts. `rx`: one event arrives at the RX source. -/
inductive Turn where
  | fce
  | await
  | host (a : HostAct)
  | rx (e : RxEvent)
  deriving DecidableEq, Repr

/-- The machine. Names are the spec's, in lower camel case. -/
structure State where
  /-- parameters of 00_scope.md R8; no step changes them -/
  params : Config.Params
  -- operand registers (R21, R22)
  op : BitVec 2
  cCmd : Byte
  cPlen : Byte
  cPay : List Byte
  -- status registers (R26)
  busy : Bool
  done : Bool
  -- result registers (R27 to R32)
  rKind : Kind
  rErr : ErrCode
  rValid : Bool
  rCmd : Byte
  rStatus : Byte
  rLen : Byte
  rData : List Byte
  -- decoder registers (R33, R34)
  dstate : DState
  idx : BitVec 9
  len : Byte
  lcs : Byte
  fd : List Byte
  -- demultiplexer registers (R36), used only when `HAS_DEMUX`
  xstate : XState
  wCmd : Byte
  frames : Nat
  -- encoder register (R35)
  txb : List Byte
  -- the streams (20_memory.md R50): RX events from the current position that wait, how the RX stream goes on after them,
  -- TX bytes written so far
  rx : List RxEvent
  source : RxSource
  tx : List Byte
  -- the model's own: the TX sink's next answers, the agents' next moves, the last value read, the draw counter
  txAns : List TxEvent
  agenda : List Turn
  hostRead : Byte
  draws : Nat
  deriving DecidableEq, Repr

/-- Reasons for which the machine stops with a fault: none. The spec's error outcomes are completions (60_exceptions.md
R215), no index is out of range (20_memory.md R51), and a hang is a state in which the block waits (00_scope.md R12).
Safe: nothing the spec allows is stopped by a fault. -/
inductive Fault where
  deriving DecidableEq, Repr

/-- Reasons for which a step has no meaning. -/
inductive Refusal where
  /-- Raised by `exec` for an instruction without a meaning. Safe: the model stops where the block goes on. -/
  | notModelled (mnemonic : String)
  /-- Raised by a host write to `OP`, `C_CMD`, `C_PLEN` or `C_PAY` while `BUSY = 1`, to which the spec gives no meaning
  (70_reset_and_hazards.md R251, U10). Safe: the model stops where an implementation may go on. -/
  | operandWriteWhileBusy
  deriving DecidableEq, Repr

/-- The machine right after reset (10_state.md R38, 70_reset_and_hazards.md R240). The contents of `C_PAY`, `R_DATA`,
`IDX`, `LEN`, `LCS`, `FD`, `W_CMD` and `TXB` are unspecified there. DESIGN CHOICE: zero (log entry 1). The streams and
the model's own fields are empty. DESIGN CHOICE (log entries 2 to 6). -/
def State.reset : State where
  params := Config.defaults
  op := 0
  cCmd := 0x00
  cPlen := 0
  cPay := List.replicate 253 0
  busy := false
  done := false
  rKind := .none
  rErr := .none
  rValid := false
  rCmd := 0x00
  rStatus := 0x00
  rLen := 0
  rData := List.replicate 255 0
  dstate := .idle
  idx := 0
  len := 0
  lcs := 0
  fd := List.replicate 255 0
  xstate := .idle
  wCmd := 0
  frames := 0
  txb := List.replicate 262 0
  rx := []
  source := .silent
  tx := []
  txAns := []
  agenda := []
  hostRead := 0
  draws := 0

end Sys2Proof.Machine
end

