-- ==== Sys2Proof/Machine/Operands.lean ====
section
/-! DEFINITION. The operand forms: the command payload, one byte of a buffer, and the response the decoder makes of the
frame data (41_decode.md R137, R138). -/

namespace Sys2Proof.Machine

/-- The command payload `C_PAY[0:C_PLEN]` (10_state.md R21). -/
def payload (s : State) : List Byte := s.cPay.take s.cPlen.toNat

/-- The frame data `FD[0:LEN]` (30_encoding.md R82). -/
def frameData (s : State) : List Byte := s.fd.take s.len.toNat

/-- `FD[i]`. -/
def fdByte (s : State) (i : Nat) : Byte := s.fd.getD i 0

/-- The Response Result (10_state.md R29): `R_LEN` is the number of data bytes. -/
structure Response where
  cmd : Byte
  status : Byte
  data : List Byte
  deriving DecidableEq, Repr

/-- Steps 9 of `DECODE` (41_decode.md R125) for the frame data `fd`, for a command that is status-bearing or not. -/
def extract (p : Config.Params) (bearing : Bool) (cmd : Byte) (fd : List Byte) : Response :=
  if bearing = true ∧ 2 < fd.length then
    if fd.getD 2 0 = p.statusSuccess ∧ Config.quirkMin < quirkLen p.quirkBasis fd.length then
      { cmd := cmd, status := fd.getD 2 0, data := fd.drop 3 }
    else { cmd := cmd, status := fd.getD 2 0, data := fd.drop 2 }
  else { cmd := cmd, status := p.statusSuccess, data := fd.drop 2 }

/-- The recovered command id `FD[1] -8 1` (30_encoding.md R89). -/
def recoveredCmd (fd : List Byte) : Byte := fd.getD 1 0 - 1

/-- The response to a whole frame: the recovered id says whether it is status-bearing (R137, R138). -/
def response (p : Config.Params) (fd : List Byte) : Response :=
  extract p (statusBearing p.cmdCommThru (recoveredCmd fd)) (recoveredCmd fd) fd

/-- The canonical form of the four byte buffers (20_memory.md R50): each has exactly its capacity. There is no other
memory (R63). -/
def Memory.wf (s : State) : Bool :=
  decide (s.cPay.length = Config.maxPayload ∧ s.rData.length = Config.dataCap ∧ s.fd.length = Config.dataCap ∧
    s.txb.length = Config.maxFrame)

/-- The code of `DSTATE` (42_decode_fsm.md R150). -/
def dstateCode : DState → BitVec 3
  | .idle => 0
  | .sync => 1
  | .hdr => 2
  | .body => 3
  | .dcs => 4
  | .post => 5

/-- The code of `XSTATE` (43_dispatch.md R176). -/
def xstateCode : XState → BitVec 2
  | .idle => 0
  | .send => 1
  | .wait => 2

/-- A one-bit register seen at the eight-bit host port. -/
def bitByte (b : Bool) : Byte := if b then 1 else 0

/-- What a readable register holds, at the host port (20_memory.md R58). -/
def regValue (s : State) : HostReg → Byte
  | .busy => bitByte s.busy
  | .done => bitByte s.done
  | .rKind => (kindCode s.rKind).setWidth 8
  | .rErr => (errCode s.rErr).setWidth 8
  | .rValid => bitByte s.rValid
  | .rCmd => s.rCmd
  | .rStatus => s.rStatus
  | .rLen => s.rLen
  | .rData i => s.rData.getD i.val 0

end Sys2Proof.Machine
end

