-- ==== Sys2Proof/Machine/Ops.lean ====
section
/-! DEFINITION. The named operations over registers, buffers and streams that the meanings share: free values, start,
completion, raising an error (the block's only exception entry), reset, the primitives of 00_scope.md R16, and the end
of a decode run in `DECODE` and in `SENDWAIT`. -/

namespace Sys2Proof.Machine

/-! ### Free values (log entry 6) -/

/-- `n` free bytes, the draws `d` and after. -/
def freeBytes (d n : Nat) : List Byte := (List.range n).map (fun i => Config.freeByte (d + i))

/-- An unspecified content of `FRAMES`, within its `ceil(log2(MAX_FRAMES+1))` bits when `MAX_FRAMES` is finite
(10_state.md R20). -/
def freeFrameCount (p : Config.Params) (d : Nat) : Nat :=
  match p.maxFrames with
  | none => Config.freeFrames d
  | some 0 => 0
  | some (m + 1) => Config.freeFrames d % 2 ^ (Nat.log2 (m + 1) + 1)

/-- The hidden registers become unspecified (10_state.md R34, 60_exceptions.md R216, U3): `IDX`, `LEN`, `LCS`, `FD`,
`TXB`, and with the demultiplexer `W_CMD`. `FRAMES` is left to the caller. -/
def forget (s : State) : State :=
  { s with
    idx := Config.freeIdx s.draws
    len := Config.freeByte s.draws
    lcs := Config.freeByte (s.draws + 1)
    wCmd := if s.params.hasDemux then Config.freeByte (s.draws + 2) else s.wCmd
    fd := freeBytes (s.draws + 3) 255
    txb := freeBytes (s.draws + 258) 262
    draws := s.draws + 520 }

/-! ### Start, completion, error, reset -/

/-- The register writes of the start step (10_state.md R23). -/
def startStep (s : State) : State :=
  { s with busy := true, done := false, rKind := .none, rErr := .none }

/-- The completion step (10_state.md R25), after which the hidden registers are unspecified (R34, U3). -/
def complete (k : Kind) (e : ErrCode) (s : State) : State :=
  { forget s with
    rKind := k
    rErr := e
    busy := false
    done := true
    dstate := .idle
    xstate := if s.params.hasDemux then .idle else s.xstate
    frames := if s.params.hasDemux then freeFrameCount s.params s.draws else s.frames }

/-- `raise E`, the block's exception entry (60_exceptions.md R215): the completion step with `R_KIND = ERR` and the
code of `E`. Nothing is saved, no vector, no mode; there is no return (R218). -/
def raise (e : ErrCode) (s : State) : State := complete .err e s

/-- The reset input (70_reset_and_hazards.md R240, R241): every register at its reset value, the unspecified ones free
values; the streams, and the other agents, are untouched. -/
def resetInput (s : State) : State :=
  { forget s with
    op := 0
    cCmd := 0x00
    cPlen := 0
    cPay := freeBytes (s.draws + 520) 253
    busy := false
    done := false
    rKind := .none
    rErr := .none
    rValid := false
    rCmd := 0x00
    rStatus := 0x00
    rLen := 0
    rData := freeBytes (s.draws + 773) 255
    dstate := .idle
    xstate := .idle
    frames := 0
    draws := s.draws + 1028 }

/-! ### The streams -/

/-- An event arrives at the RX source and waits in order (20_memory.md R53). -/
def arrive (e : RxEvent) (s : State) : State := { s with rx := s.rx ++ [e] }

/-- The event that `RxByte()` answers is gone from the stream (20_memory.md R52). -/
def consume (s : State) : State := { s with rx := s.rx.tail }

/-- What ends the next frame write: the next listed answer, or a free value of the sink's (20_memory.md R57). -/
def nextTxEvent (s : State) : TxEvent :=
  match s.txAns with
  | [] => .answer (Config.freeTxAnswer s.draws)
  | e :: _ => e

/-- The answer is used up. -/
def dropTxEvent (s : State) : State :=
  match s.txAns with
  | [] => { s with draws := s.draws + 1 }
  | _ :: rest => { s with txAns := rest }

/-- How many bytes of a frame of `n` bytes have gone out when the write ends so (20_memory.md R57, R241). -/
def sentCount (n : Nat) : TxEvent → Nat
  | .answer .ok => n
  | .answer (.fail k) => k
  | .cut k => k

/-- `TxFrame(f)` (20_memory.md R57): `f` stands in `TXB`, and all of it or a part from its front is appended to the TX
stream. -/
def txFrame (f : List Byte) (s : State) : State :=
  { dropTxEvent s with
    txb := f ++ s.txb.drop f.length
    tx := s.tx ++ f.take (sentCount f.length (nextTxEvent s)) }

/-! ### The end of a run -/

/-- The turn of `SENDWAIT`'s loop (43_dispatch.md R175, R178, R183): the bound is tested before a further byte is
requested, then an inner run begins with its own preamble scan. -/
def nextRun (s : State) : State :=
  if s.params.maxFrames = some s.frames then raise .timeout s else { s with dstate := .sync }

/-- An inner run has ended (`FRAMES <- FRAMES + 1`). -/
def countRun (s : State) : State := { s with frames := s.frames + 1 }

/-- The result registers of a `DATA` outcome (41_decode.md R139): `R_DATA` beyond `R_LEN` becomes unspecified
(10_state.md R32). -/
def writeResult (r : Response) (s : State) : State :=
  { s with
    rValid := true
    rCmd := r.cmd
    rStatus := r.status
    rLen := BitVec.ofNat 8 r.data.length
    rData := r.data ++ freeBytes s.draws (255 - r.data.length)
    draws := s.draws + (255 - r.data.length) }

/-- A frame write and what follows it (40_encode.md R110, R113; 43_dispatch.md R177): the sink's `Ok` ends the operation
with `NONE`, or with `wait` moves `SENDWAIT` to its wait phase; `Fail` raises `E_TX`; a reset that strikes during the
write resets the block (70_reset_and_hazards.md R241). -/
def writeFrame (wait : Bool) (f : List Byte) (s : State) : State :=
  match nextTxEvent s with
  | .answer .ok =>
    if wait then nextRun { txFrame f s with xstate := .wait } else complete .none .none (txFrame f s)
  | .answer (.fail _) => raise .tx (txFrame f s)
  | .cut _ => resetInput (txFrame f s)

/-- A run that read an acknowledgement: the outcome `ACK` of `DECODE` (41_decode.md R134), skipped inside `SENDWAIT`
(43_dispatch.md R181, R185). -/
def endAck (s : State) : State :=
  match s.xstate with
  | .wait => nextRun (countRun s)
  | _ => complete .ack .none s

/-- A run that read a data frame: the outcome `DATA` of `DECODE` (41_decode.md R139); inside `SENDWAIT` the result
registers are written in any case (43_dispatch.md R179), a matching frame ends the wait (R180) and another is skipped
(R181). -/
def endData (r : Response) (s : State) : State :=
  match s.xstate with
  | .wait =>
    if r.cmd = s.wCmd then complete .data .none (countRun (writeResult r s))
    else nextRun (countRun (writeResult r s))
  | _ => complete .data .none (writeResult r s)

/-- A run that failed: the operation ends with its error, `DECODE` and `SENDWAIT` alike (41_decode.md R126, R131 to
R136; 43_dispatch.md R182). -/
def endErr (e : ErrCode) (s : State) : State := raise e s

end Sys2Proof.Machine
end

