-- ==== Sys2Proof/Machine/Decoder.lean ====
section
/-! DEFINITION. The decoder as the byte-serial machine of 42_decode_fsm.md, one step per RX event: which row of the
classification (30_encoding.md R94) an event meets, what that row does, and what an event does that meets none. -/

namespace Sys2Proof.Machine

/-- The rows of the classification of 30_encoding.md R94. -/
inductive ClassRow where
  | row1
  | row2
  | row3
  | row4
  | row5
  | row6
  | row7
  | row8
  deriving DecidableEq, Repr

/-- The block requests RX bytes exactly when `DSTATE` is not `D_IDLE` (42_decode_fsm.md R163); it does so while an
operation runs. -/
def requesting (s : State) : Bool := s.busy && decide (s.dstate ≠ .idle)

/-- One body byte is stored: `LCS` first, then the frame data (42_decode_fsm.md R156). -/
def storeBody (b : Byte) (s : State) : State :=
  if s.idx = 0 then { s with lcs := b } else { s with fd := s.fd.set (s.idx.toNat - 1) b }

/-- The classification of a whole frame at its postamble `b` (42_decode_fsm.md R158). -/
def classifyAtPost (b : Byte) (s : State) : ClassRow :=
  if b ≠ Config.postamble then .row4
  else if s.len = 0 then .row5
  else if fdByte s 0 ≠ Config.tfiIn then .row6
  else if s.len.toNat < 2 then .row7
  else .row8

/-- Which row of the classification the event `e` meets in this decoder state, if any (R154 to R159). A test is made
only where the procedure makes it (41_decode.md R130): the length checksum at the last body byte, the data checksum at
its own byte, everything else at the postamble. -/
def verdict (s : State) : RxEvent → Option ClassRow
  | .err =>
    match s.dstate with
    | .idle => none
    | _ => some .row1
  | .byte b =>
    match s.dstate with
    | .idle | .sync | .hdr => none
    | .body =>
      if s.idx.toNat < s.len.toNat then none
      else if lcsGood s.len (storeBody b s).lcs then none
      else some .row2
    | .dcs => if dcsGood (frameData s) b then none else some .row3
    | .post => some (classifyAtPost b s)

/-- What a row does, its deciding event being consumed (30_encoding.md R94). -/
def rowOutcome (r : ClassRow) (s : State) : State :=
  match r with
  | .row1 => endErr .rx s
  | .row2 => endErr .lcs s
  | .row3 => endErr .dcs s
  | .row4 => endErr .postamble s
  | .row5 => endAck s
  | .row6 => endErr .direction s
  | .row7 => endErr .frameLen s
  | .row8 => endData (response s.params (frameData s)) s

/-- What the byte `b` does when it meets no row (R154 to R157): the decoder goes on. -/
def advance (b : Byte) (s : State) : State :=
  match s.dstate with
  | .idle => s
  | .sync => if b = Config.preamble then { s with idx := 0, dstate := .hdr } else s
  | .hdr =>
    if s.idx = 0 ∨ s.idx = 1 then { s with idx := s.idx + 1 }
    else { s with len := b, idx := 0, dstate := .body }
  | .body =>
    if s.idx.toNat < s.len.toNat then { storeBody b s with idx := s.idx + 1 }
    else if s.len = 0 then { storeBody b s with dstate := .post }
    else { storeBody b s with dstate := .dcs }
  | .dcs => { s with dstate := .post }
  | .post => s

/-- A byte that decides nothing is consumed and the decoder goes on. An `Err` that meets no row is not requested. -/
def goOn (s : State) : State :=
  match s.rx with
  | .byte b :: _ => advance b (consume s)
  | _ => s

/-- The row the next event of the RX stream meets, if the block requests one and one is there. -/
def pendingRow (s : State) : Option ClassRow :=
  if requesting s then
    match s.rx with
    | [] => none
    | e :: _ => verdict s e
  else none

/-- Row `r` of the classification as an instruction: if the next event meets it, the event is consumed and the outcome
takes place; a row that the event does not meet does nothing. -/
def applyRow (r : ClassRow) (s : State) : State :=
  if pendingRow s = some r then rowOutcome r (consume s) else s

/-- One step of the decoder: the row the next event meets, or going on; without an event the block waits
(42_decode_fsm.md R153). -/
def decoderStep (s : State) : State :=
  if requesting s then
    match pendingRow s with
    | some r => applyRow r s
    | none => goOn s
  else s

/-- The bytes `bs` arrive at the RX source, and the decoder takes an event after each arrival while it asks for one. -/
def deliver (bs : List Byte) (s : State) : State :=
  bs.foldl (fun s b => decoderStep (arrive (.byte b) s)) s

end Sys2Proof.Machine
end

