-- ==== Sys2Proof/Machine/Classes.lean ====
section
/-! DEFINITION. The eight rows of the ordered classification (30_encoding.md R94) as instructions: each consumes the
event that meets it and has its outcome. -/

namespace Sys2Proof.Machine

/-- `CLASS_1` (41_decode.md R126): an `Err` event while the frame is read: `E_RX`. -/
def execClass1 (s : State) : Host.Outcome State Fault Refusal := .next (applyRow .row1 s)

/-- `CLASS_2` (R131): bad length checksum: `E_LCS`. -/
def execClass2 (s : State) : Host.Outcome State Fault Refusal := .next (applyRow .row2 s)

/-- `CLASS_3` (R132): bad data checksum: `E_DCS`. -/
def execClass3 (s : State) : Host.Outcome State Fault Refusal := .next (applyRow .row3 s)

/-- `CLASS_4` (R133): bad postamble: `E_POSTAMBLE`. -/
def execClass4 (s : State) : Host.Outcome State Fault Refusal := .next (applyRow .row4 s)

/-- `CLASS_5` (R134): `LEN = 0`: `ACK`. -/
def execClass5 (s : State) : Host.Outcome State Fault Refusal := .next (applyRow .row5 s)

/-- `CLASS_6` (R135): TFI other than 0xD5: `E_DIRECTION`. -/
def execClass6 (s : State) : Host.Outcome State Fault Refusal := .next (applyRow .row6 s)

/-- `CLASS_7` (R136): `LEN = 1`: `E_FRAMELEN`. -/
def execClass7 (s : State) : Host.Outcome State Fault Refusal := .next (applyRow .row7 s)

/-- `CLASS_8` (R137 to R139): `DATA`. -/
def execClass8 (s : State) : Host.Outcome State Fault Refusal := .next (applyRow .row8 s)

end Sys2Proof.Machine
end

