-- ==== Sys2Proof/Machine/CommandIds.lean ====
section
/-! DEFINITION. The command-id classes (30_encoding.md R90, R92) as instructions: the frame data of the decoder is
delivered as the answer to a command of that class (41_decode.md R137 to R139; inside `SENDWAIT` 43_dispatch.md R179
to R181). -/

namespace Sys2Proof.Machine

/-- `CMD_DATA_EXCHANGE` (R90): status-bearing, id 0x40. -/
def execCmdDataExchange (s : State) : Host.Outcome State Fault Refusal :=
  .next (endData (extract s.params true Config.cmdDataExchange (frameData s)) s)

/-- `CMD_COMM_THRU` (R90): status-bearing, id the parameter `CMD_COMM_THRU`. -/
def execCmdCommThru (s : State) : Host.Outcome State Fault Refusal :=
  .next (endData (extract s.params true s.params.cmdCommThru (frameData s)) s)

/-- `CMD_OTHER` (R92): no status byte, the whole response data is data (R137). -/
def execCmdOther (c : Byte) (s : State) : Host.Outcome State Fault Refusal :=
  .next (endData (extract s.params false c (frameData s)) s)

end Sys2Proof.Machine
end

