-- ==== Sys2Proof/Machine/Errors.lean ====
section
/-! DEFINITION. The error codes (60_exceptions.md R210) as instructions: each raises its error (R215). -/

namespace Sys2Proof.Machine

/-- `E_NONE`: the operation ends without an error; the row alone names no frame result, so `R_KIND` is what the start
step made it, `NONE` (10_state.md R23). -/
def execErrNone (s : State) : Host.Outcome State Fault Refusal := .next (complete .none .none s)

/-- `E_TX`: the TX sink answered `Fail`. -/
def execErrTx (s : State) : Host.Outcome State Fault Refusal := .next (raise .tx s)

/-- `E_RX`: the RX source answered `Err`. -/
def execErrRx (s : State) : Host.Outcome State Fault Refusal := .next (raise .rx s)

/-- `E_LCS`: length-checksum mismatch. -/
def execErrLcs (s : State) : Host.Outcome State Fault Refusal := .next (raise .lcs s)

/-- `E_DCS`: data-checksum mismatch. -/
def execErrDcs (s : State) : Host.Outcome State Fault Refusal := .next (raise .dcs s)

/-- `E_POSTAMBLE`: bad postamble. -/
def execErrPostamble (s : State) : Host.Outcome State Fault Refusal := .next (raise .postamble s)

/-- `E_DIRECTION`: bad direction byte. -/
def execErrDirection (s : State) : Host.Outcome State Fault Refusal := .next (raise .direction s)

/-- `E_FRAMELEN`: frame too short. -/
def execErrFrameLen (s : State) : Host.Outcome State Fault Refusal := .next (raise .frameLen s)

/-- `E_PAYLOAD`: `C_PLEN` above 253. -/
def execErrPayload (s : State) : Host.Outcome State Fault Refusal := .next (raise .payload s)

/-- `E_TIMEOUT`: `MAX_FRAMES` inner runs without match or error. -/
def execErrTimeout (s : State) : Host.Outcome State Fault Refusal := .next (raise .timeout s)

/-- `E_BADOP`: `OP = 3` without the demultiplexer. -/
def execErrBadOp (s : State) : Host.Outcome State Fault Refusal := .next (raise .badOp s)

end Sys2Proof.Machine
end

