-- ==== Sys2Proof/Machine/Frames.lean ====
section
/-! DEFINITION. The three frame formats (30_encoding.md R83 to R85): the outbound frame is written by the block, the
inbound frames arrive at the RX source and the decoder takes them (log entry 7). -/

namespace Sys2Proof.Machine

/-- `FRAME_OUT_DATA` (R84): the block writes the frame of command id `c` and payload `p` (40_encode.md R113). In the
send phase of `SENDWAIT` success moves to the wait phase (43_dispatch.md R177); otherwise it is `ENCODE`'s write. A
payload above 253 bytes is no such frame: `E_PAYLOAD` (R111). -/
def execFrameOutData (c : Byte) (p : List Byte) (s : State) : Host.Outcome State Fault Refusal :=
  if Config.maxPayload < p.length then .next (raise .payload s)
  else .next (writeFrame (decide (s.xstate = .send)) (encodeFrame c p) s)

/-- `FRAME_IN_DATA` (R85): the frame with start codes `s1`, `s2`, echoed id `e` and response data `q` arrives. -/
def execFrameInData (s1 s2 e : Byte) (q : List Byte) (s : State) : Host.Outcome State Fault Refusal :=
  .next (deliver (frameBytes s1 s2 Config.tfiIn e q) s)

/-- `FRAME_ACK` (R83): the acknowledgement frame arrives, with start codes `s1`, `s2`. -/
def execFrameAck (s1 s2 : Byte) (s : State) : Host.Outcome State Fault Refusal :=
  .next (deliver (ackBytes s1 s2) s)

end Sys2Proof.Machine
end

