-- ==== Sys2Proof/Machine/Kinds.lean ====
section
/-! DEFINITION. The outcome kinds (10_state.md R27) as instructions: the completion step (R25) with that kind. -/

namespace Sys2Proof.Machine

/-- `NONE`: no frame result. -/
def execKindNone (s : State) : Host.Outcome State Fault Refusal := .next (complete .none .none s)

/-- `ACK`: the result registers keep their values (R30). -/
def execKindAck (s : State) : Host.Outcome State Fault Refusal := .next (complete .ack .none s)

/-- `DATA`: atomically with the completion, the frame in the decoder is delivered (41_decode.md R139). -/
def execKindData (s : State) : Host.Outcome State Fault Refusal :=
  .next (complete .data .none (writeResult (response s.params (frameData s)) s))

/-- `ERR` with the error code `e` (60_exceptions.md R210, R215). -/
def execKindErr (e : ErrCode) (s : State) : Host.Outcome State Fault Refusal := .next (complete .err e s)

end Sys2Proof.Machine
end

