-- ==== Sys2Proof/Machine/Operations.lean ====
section
/-! DEFINITION. The four operations (30_encoding.md R101). Each meaning is the operation's first step, the one after the
start step (20_memory.md R67); `DECODE` and `SENDWAIT` go on with the decoder's steps (42_decode_fsm.md). -/

namespace Sys2Proof.Machine

/-- `NOP` (10_state.md R24): completes at once. -/
def execNop (s : State) : Host.Outcome State Fault Refusal :=
  .next (complete .none .none s)

/-- `ENCODE` (40_encode.md R110): an over-long payload is rejected before anything is written (R111); else the frame
is assembled and written in one step (R113), and the operation ends with the sink's answer. -/
def execEncode (s : State) : Host.Outcome State Fault Refusal :=
  if Config.maxPayload < s.cPlen.toNat then .next (raise .payload s)
  else .next (writeFrame false (encodeFrame s.cCmd (payload s)) s)

/-- `DECODE` (41_decode.md R125): the run begins with the preamble scan (42_decode_fsm.md R151). -/
def execDecode (s : State) : Host.Outcome State Fault Refusal :=
  .next { s with dstate := .sync }

/-- The latches of `SENDWAIT` (10_state.md R36, 43_dispatch.md R175). -/
def latchCommand (s : State) : State := { s with wCmd := s.cCmd, frames := 0, xstate := .send }

/-- The send phase of `SENDWAIT` (43_dispatch.md R177): `ENCODE`'s, but success moves to the wait phase and to the
first turn of the loop. -/
def sendPhase (s : State) : State :=
  if Config.maxPayload < s.cPlen.toNat then raise .payload s
  else writeFrame true (encodeFrame s.cCmd (payload s)) s

/-- `SENDWAIT` (43_dispatch.md R175): reserved without the demultiplexer (10_state.md R22); else it latches the command
id and sends, in the step after the start (20_memory.md R67). -/
def execSendwait (s : State) : Host.Outcome State Fault Refusal :=
  if s.params.hasDemux then .next (sendPhase (latchCommand s)) else .next (raise .badOp s)

end Sys2Proof.Machine
end

