-- ==== Sys2Proof/Machine/Dispatch.lean ====
section
/-! DEFINITION. The dispatch: one arm per row of spec/opcode_table.json. -/

namespace Sys2Proof.Machine

def exec (i : Instr) (s : State) : Host.Outcome State Fault Refusal :=
  match i with
  | .nop => Sys2Proof.Machine.execNop s
  | .encode => Sys2Proof.Machine.execEncode s
  | .decode => Sys2Proof.Machine.execDecode s
  | .sendwait => Sys2Proof.Machine.execSendwait s
  | .frameOutData c p => Sys2Proof.Machine.execFrameOutData c p s
  | .frameInData s1 s2 e q => Sys2Proof.Machine.execFrameInData s1 s2 e q s
  | .frameAck s1 s2 => Sys2Proof.Machine.execFrameAck s1 s2 s
  | .class1 => Sys2Proof.Machine.execClass1 s
  | .class2 => Sys2Proof.Machine.execClass2 s
  | .class3 => Sys2Proof.Machine.execClass3 s
  | .class4 => Sys2Proof.Machine.execClass4 s
  | .class5 => Sys2Proof.Machine.execClass5 s
  | .class6 => Sys2Proof.Machine.execClass6 s
  | .class7 => Sys2Proof.Machine.execClass7 s
  | .class8 => Sys2Proof.Machine.execClass8 s
  | .cmdDataExchange => Sys2Proof.Machine.execCmdDataExchange s
  | .cmdCommThru => Sys2Proof.Machine.execCmdCommThru s
  | .cmdOther c => Sys2Proof.Machine.execCmdOther c s
  | .kindNone => Sys2Proof.Machine.execKindNone s
  | .kindAck => Sys2Proof.Machine.execKindAck s
  | .kindData => Sys2Proof.Machine.execKindData s
  | .kindErr e => Sys2Proof.Machine.execKindErr e s
  | .errNone => Sys2Proof.Machine.execErrNone s
  | .errTx => Sys2Proof.Machine.execErrTx s
  | .errRx => Sys2Proof.Machine.execErrRx s
  | .errLcs => Sys2Proof.Machine.execErrLcs s
  | .errDcs => Sys2Proof.Machine.execErrDcs s
  | .errPostamble => Sys2Proof.Machine.execErrPostamble s
  | .errDirection => Sys2Proof.Machine.execErrDirection s
  | .errFrameLen => Sys2Proof.Machine.execErrFrameLen s
  | .errPayload => Sys2Proof.Machine.execErrPayload s
  | .errTimeout => Sys2Proof.Machine.execErrTimeout s
  | .errBadOp => Sys2Proof.Machine.execErrBadOp s

end Sys2Proof.Machine
end

