-- ==== Sys2Proof/Machine/HostPort.lean ====
section
/-! DEFINITION. The host's actions at its port (20_memory.md R58, 10_state.md R23, 70_reset_and_hazards.md R241, R251). -/

namespace Sys2Proof.Machine

/-- A write of an operand register: enabled when `BUSY = 0` (R58); while an operation runs the spec gives it no
meaning and a model refuses it (R251, U10). -/
def operandWrite (t : State) (s : State) : Host.Outcome State Fault Refusal :=
  if s.busy then .refused .operandWriteWhileBusy else .next t

/-- The start step (10_state.md R23): ignored while `BUSY = 1`. Without the demultiplexer `OP = 3` is reserved and the
start step itself detects `E_BADOP` (10_state.md R22, 60_exceptions.md R220). -/
def hostStart (s : State) : State :=
  if s.busy then s
  else if decodeOp s.op = .sendwait ∧ s.params.hasDemux = false then raise .badOp (startStep s)
  else startStep s

/-- While an operation runs, `R_VALID` and the Response Result may change at any inner frame, so that a read of them
may give anything (20_memory.md R68, U11). -/
def unsettled (s : State) : HostReg → Bool
  | .busy | .done | .rKind | .rErr => false
  | .rValid | .rCmd | .rStatus | .rLen | .rData _ => s.busy

/-- A free value as wide as the register read. -/
def freeRead (d : Nat) : HostReg → Byte
  | .rValid => Config.freeByte d &&& 1
  | _ => Config.freeByte d

/-- A host read (R58): the value goes to the host, and no register of the block changes. -/
def hostReadReg (r : HostReg) (s : State) : State :=
  if unsettled s r then { s with hostRead := freeRead s.draws r, draws := s.draws + 1 }
  else { s with hostRead := regValue s r }

/-- The host acts. -/
def hostStep (a : HostAct) (s : State) : Host.Outcome State Fault Refusal :=
  match a with
  | .writeOp v => operandWrite { s with op := v } s
  | .writeCmd v => operandWrite { s with cCmd := v } s
  | .writePlen v => operandWrite { s with cPlen := v } s
  | .writePay i v => operandWrite { s with cPay := s.cPay.set i.val v } s
  | .start => .next (hostStart s)
  | .read r => .next (hostReadReg r s)
  | .reset => .next (resetInput s)

end Sys2Proof.Machine
end

