-- ==== Sys2Proof/Machine/Fetch.lean ====
section
/-! DEFINITION. Whose move is next, which instruction the block runs next, and what it does when it runs none. The block
has no program counter: the sequencing state and `OP` say what it does (10_state.md R33). -/

namespace Sys2Proof.Machine

/-- A move: of the block in the given state, or of another agent with the given outcome. -/
inductive Move where
  | block (s : State)
  | other (o : Host.Outcome State Fault Refusal)

/-- The RX source answers a request (00_scope.md R10, R11): where the block requests a byte, none waits and the source is
endless, its next event arrives. -/
def sourceAnswer (s : State) : Option State :=
  match s.rx, s.source with
  | [], .endless k =>
    if requesting s then some (arrive (Config.freeRxEvent k) { s with source := .endless (k + 1) }) else none
  | _, _ => none

/-- The block's move in the state `s'`, unless the RX source has first to answer its request. -/
def blockMove (s s' : State) : Move :=
  match sourceAnswer s with
  | some t => .other (.next t)
  | none => .block s'

/-- The next move (00_scope.md R10, log entry 2): the head of the agenda, and the block's when the agenda is empty.
`await` lets the block move while `BUSY = 1` (70_reset_and_hazards.md R250). -/
def nextMove (s : State) : Move :=
  match s.agenda with
  | [] => blockMove s s
  | .fce :: rest => blockMove s { s with agenda := rest }
  | .await :: rest => if s.busy then blockMove s s else .other (.next { s with agenda := rest })
  | .host a :: rest => .other (hostStep a { s with agenda := rest })
  | .rx e :: rest => .other (.next (arrive e { s with agenda := rest }))

/-- The instruction of a row of the classification. -/
def rowInstr : ClassRow → Instr
  | .row1 => .class1
  | .row2 => .class2
  | .row3 => .class3
  | .row4 => .class4
  | .row5 => .class5
  | .row6 => .class6
  | .row7 => .class7
  | .row8 => .class8

/-- The instruction the block runs next. A started operation that has made no step yet is the one `OP` selects (10_state.md
R22, R23); a running decoder runs the row of the classification that the next RX event meets; otherwise none. -/
def nextInstr (s : State) : Option Instr :=
  if s.busy then
    match s.dstate, s.xstate with
    | .idle, .idle => some (decodeOp s.op)
    | .idle, _ => none
    | _, _ => (pendingRow s).map rowInstr
  else none

/-- The block's step when it runs no instruction: the decoder takes a byte that decides nothing, or waits for one; an
idle block stays as it is. The states `X_SEND` and `X_WAIT` with an idle decoder do not occur between steps (43_dispatch.md
R176); there the operation goes on where its sequencing state says. -/
def quietStep (s : State) : State :=
  if s.busy then
    match s.dstate, s.xstate with
    | .idle, .idle => s
    | .idle, .send => sendPhase s
    | .idle, .wait => nextRun s
    | _, _ => goOn s
  else s

/-! ### Placing an instruction (log entry 9) -/

/-- The started operation `op`, its first step being next, and the block's move being next. -/
def placeOp (op : BitVec 2) (s : State) : State :=
  { startStep s with op := op, dstate := .idle, xstate := .idle, agenda := .fce :: s.agenda }

/-- A `DECODE` run that has taken all of a frame with frame data `fd` but its postamble, which is next in the RX
stream; the block's move is next. -/
def placeFrame (fd : List Byte) (s : State) : State :=
  { startStep s with
    op := 2
    dstate := .post
    xstate := .idle
    len := BitVec.ofNat 8 fd.length
    lcs := lcsOf (BitVec.ofNat 8 fd.length)
    fd := fd ++ s.fd.drop fd.length
    rx := .byte Config.postamble :: s.rx
    agenda := .fce :: s.agenda }

/-- The operation `ENCODE` of command id `c` and payload `p`, its first step being next. -/
def placeEncode (c : Byte) (p : List Byte) (s : State) : State :=
  { placeOp 1 s with cCmd := c, cPlen := BitVec.ofNat 8 p.length, cPay := p ++ s.cPay.drop p.length }

/-- The very next step runs the instruction `i`. An operation is started; a command id or a frame is placed as the
frame that leads to it, an outbound frame as the `ENCODE` that writes it. The other rows have no word of the table
(`decodeTableWord` gives none of them) and place nothing. -/
def place (i : Instr) (s : State) : State :=
  match i with
  | .nop => placeOp 0 s
  | .encode => placeOp 1 s
  | .decode => placeOp 2 s
  | .sendwait => placeOp 3 s
  | .frameOutData c p => placeEncode c p s
  | .frameInData _ _ e q => placeFrame (Config.tfiIn :: e :: q) s
  | .frameAck _ _ => placeFrame [] s
  | .cmdDataExchange => placeFrame [Config.tfiIn, Config.cmdDataExchange + 1] s
  | .cmdCommThru => placeFrame [Config.tfiIn, s.params.cmdCommThru + 1] s
  | .cmdOther c => placeFrame [Config.tfiIn, c + 1] s
  | .class1 | .class2 | .class3 | .class4 | .class5 | .class6 | .class7 | .class8 => s
  | .kindNone | .kindAck | .kindData | .kindErr _ => s
  | .errNone | .errTx | .errRx | .errLcs | .errDcs | .errPostamble | .errDirection | .errFrameLen => s
  | .errPayload | .errTimeout | .errBadOp => s

end Sys2Proof.Machine
end

