-- ==== Sys2Proof/Machine/Step.lean ====
section
/-! DEFINITION. One step of the machine: the next move, and for a move of the block the instruction it runs. -/

namespace Sys2Proof.Machine

/-- One step: a host action, an RX event that arrives or answers a request, or a step of the block, which runs its next instruction or,
when there is none, takes a byte that decides nothing or waits. -/
def step (s : State) : Host.Outcome State Fault Refusal :=
  match nextMove s with
  | .other o => o
  | .block s' =>
    match nextInstr s' with
    | some i => exec i s'
    | none => .next (quietStep s')

/-- `s` with the instruction of the table word `w` placed so that the very next step runs it (log entry 9). -/
def State.withFetchWord (s : State) (nbits w : Nat) : State :=
  match decodeTableWord nbits w with
  | some i => place i s
  | none => s

end Sys2Proof.Machine
end

