-- ==== Sys2Proof/Machine/Procedure.lean ====
section
/-! DEFINITION. `DECODE` and the wait phase of `SENDWAIT` as the procedures of 41_decode.md R125 and 43_dispatch.md R175,
over a list of RX events. They are the reference that the byte-serial machine must agree with (42_decode_fsm.md R160);
no step of the machine uses them. -/

namespace Sys2Proof.Machine

/-- What a read step gives (00_scope.md R16): a value and the events left, a read failure and the events left, or no
answer (the source falls silent: a hang, R12). -/
inductive Read (α : Type) where
  | ok (a : α) (rest : List RxEvent)
  | err (rest : List RxEvent)
  | hang

/-- How a decode run ends (00_scope.md R16 `return`, `raise`). -/
inductive RunEnd where
  | ack
  | data (r : Response)
  | err (e : ErrCode)
  deriving DecidableEq, Repr

/-- A decode run: its end and the events it left, or a hang. -/
inductive RunResult where
  | ended (e : RunEnd) (rest : List RxEvent)
  | hang
  deriving DecidableEq, Repr

/-- Read, then go on; a read failure ends the run with `E_RX` at once (41_decode.md R126). -/
def Read.andThen {α : Type} (r : Read α) (k : α → List RxEvent → RunResult) : RunResult :=
  match r with
  | .ok a rest => k a rest
  | .err rest => .ended (.err .rx) rest
  | .hang => .hang

/-- `RxByte()`. -/
def rxByte : List RxEvent → Read Byte
  | [] => .hang
  | .byte b :: rest => .ok b rest
  | .err :: rest => .err rest

/-- `RxExact(n)`: `n` calls of `RxByte()` in order, failing at the first that fails (20_memory.md R56). -/
def rxExact : Nat → List RxEvent → Read (List Byte)
  | 0, evs => .ok [] evs
  | n + 1, evs =>
    match rxByte evs with
    | .err rest => .err rest
    | .hang => .hang
    | .ok b rest =>
      match rxExact n rest with
      | .err rest' => .err rest'
      | .hang => .hang
      | .ok bs rest' => .ok (b :: bs) rest'

/-- Step 1: single bytes are read and discarded up to the first 0x00 (41_decode.md R127). -/
def rxScan : List RxEvent → Read Unit
  | [] => .hang
  | .err :: rest => .err rest
  | .byte b :: rest => if b = Config.preamble then .ok () rest else rxScan rest

/-- Steps 7 to 9, once the postamble is good (41_decode.md R134 to R138). -/
def classifyFrame (p : Config.Params) (fd : List Byte) : RunEnd :=
  if fd.length = 0 then .ack
  else if fd.getD 0 0 ≠ Config.tfiIn then .err .direction
  else if fd.length < 2 then .err .frameLen
  else .data (response p fd)

/-- Step 6: the postamble (R133), then the classification. -/
def readPost (p : Config.Params) (fd : List Byte) (evs : List RxEvent) : RunResult :=
  (rxByte evs).andThen fun b rest =>
    if b ≠ Config.postamble then .ended (.err .postamble) rest else .ended (classifyFrame p fd) rest

/-- Steps 4 and 5: the length checksum, tested only after the whole body has been read (R129, R131), then the data
checksum when there is frame data (R132). -/
def checkBody (p : Config.Params) (len lcs : Byte) (fd : List Byte) (evs : List RxEvent) : RunResult :=
  if lcsGood len lcs = false then .ended (.err .lcs) evs
  else if len = 0 then readPost p fd evs
  else
    (rxByte evs).andThen fun d rest =>
      if dcsGood fd d = false then .ended (.err .dcs) rest else readPost p fd rest

/-- `DECODE` (41_decode.md R125). -/
def decodeRun (p : Config.Params) (evs : List RxEvent) : RunResult :=
  (rxScan evs).andThen fun _ evs =>
    (rxExact 3 evs).andThen fun h evs =>
      (rxExact ((h.getD 2 0).toNat + 1) evs).andThen fun g evs =>
        checkBody p (h.getD 2 0) (g.getD 0 0) (g.drop 1) evs

/-- How the wait phase of `SENDWAIT` ends. `slot` is the last data frame that an inner run decoded, whose values the
result registers hold (43_dispatch.md R179). -/
inductive WaitResult where
  | ended (e : RunEnd) (slot : Option Response) (rest : List RxEvent)
  | hang (slot : Option Response)
  deriving DecidableEq, Repr

/-- The loop of `SENDWAIT` (43_dispatch.md R175) waiting for command id `w`, with `frames` inner runs made. `fuel` bounds
the turns; every turn that goes on has used up an event, so that more fuel than events is never used up. -/
def waitLoop (p : Config.Params) (w : Byte) : Nat → Nat → Option Response → List RxEvent → WaitResult
  | 0, _, slot, _ => .hang slot
  | fuel + 1, frames, slot, evs =>
    if p.maxFrames = some frames then .ended (.err .timeout) slot evs
    else
      match decodeRun p evs with
      | .hang => .hang slot
      | .ended (.err e) rest => .ended (.err e) slot rest
      | .ended .ack rest => waitLoop p w fuel (frames + 1) slot rest
      | .ended (.data r) rest =>
        if r.cmd = w then .ended (.data r) (some r) rest else waitLoop p w fuel (frames + 1) (some r) rest

/-- The wait phase of `SENDWAIT` over the events `evs`, from its first turn. -/
def waitPhase (p : Config.Params) (w : Byte) (evs : List RxEvent) : WaitResult :=
  waitLoop p w (evs.length + 1) 0 none evs

end Sys2Proof.Machine
end

