-- ==== Sys2Proof/Safety.lean ====
section
/-! DEFINITION. The terms in which claims speak: what a completion writes, what stays as it was, and the invariant of
the states that runs reach. -/

namespace Sys2Proof.Machine

/-- `t` is the state after a completion step with kind `k` and code `e` (10_state.md R25): its six register writes. -/
structure Completed (k : Kind) (e : ErrCode) (s t : State) : Prop where
  kind : t.rKind = k
  code : t.rErr = e
  notBusy : t.busy = false
  done : t.done = true
  decoderIdle : t.dstate = .idle
  demuxIdle : s.params.hasDemux = true → t.xstate = .idle

/-- The operand registers are unchanged; so is every byte of `C_PAY`. -/
structure SameOperands (s t : State) : Prop where
  op : t.op = s.op
  cCmd : t.cCmd = s.cCmd
  cPlen : t.cPlen = s.cPlen
  cPay : t.cPay = s.cPay

/-- The result registers other than the outcome are unchanged; so is every byte of `R_DATA`. -/
structure SameResults (s t : State) : Prop where
  rValid : t.rValid = s.rValid
  rCmd : t.rCmd = s.rCmd
  rStatus : t.rStatus = s.rStatus
  rLen : t.rLen = s.rLen
  rData : t.rData = s.rData

/-- The outcome and status registers are unchanged. -/
structure SameOutcome (s t : State) : Prop where
  busy : t.busy = s.busy
  done : t.done = s.done
  rKind : t.rKind = s.rKind
  rErr : t.rErr = s.rErr

/-- The decoder's registers are unchanged; so is every byte of `FD`. -/
structure SameDecoder (s t : State) : Prop where
  dstate : t.dstate = s.dstate
  idx : t.idx = s.idx
  len : t.len = s.len
  lcs : t.lcs = s.lcs
  fd : t.fd = s.fd

/-- The demultiplexer's registers are unchanged. -/
structure SameDemux (s t : State) : Prop where
  xstate : t.xstate = s.xstate
  wCmd : t.wCmd = s.wCmd
  frames : t.frames = s.frames

/-- Neither stream has moved. -/
structure SameStreams (s t : State) : Prop where
  rx : t.rx = s.rx
  source : t.source = s.source
  tx : t.tx = s.tx

/-- The parameters and the other agents are unchanged. -/
structure SameAgents (s t : State) : Prop where
  params : t.params = s.params
  source : t.source = s.source
  agenda : t.agenda = s.agenda
  hostRead : t.hostRead = s.hostRead

/-- The result registers hold the response `r` (41_decode.md R139). What `R_DATA` holds from `R_LEN` on is left open
(10_state.md R32). -/
structure Delivered (r : Response) (t : State) : Prop where
  rValid : t.rValid = true
  rCmd : t.rCmd = r.cmd
  rStatus : t.rStatus = r.status
  rLen : t.rLen = BitVec.ofNat 8 r.data.length
  rData : t.rData.take r.data.length = r.data

/-- The state with the agenda's head taken off. -/
def State.withAgenda (s : State) (rest : List Turn) : State := { s with agenda := rest }

/-- The block's move is next, and it is made in the state `s'`: the agenda is empty, or its head is the block's move, which
is used up, or the host waits while `BUSY = 1` (70_reset_and_hazards.md R250, log entry 2). -/
inductive BlockMoves (s : State) : State → Prop where
  | alone (h : s.agenda = []) : BlockMoves s s
  | turn (rest : List Turn) (h : s.agenda = .fce :: rest) : BlockMoves s (s.withAgenda rest)
  | awaited (rest : List Turn) (h : s.agenda = .await :: rest) (hb : s.busy = true) : BlockMoves s s

/-- The beginning of the RX stream (20_memory.md R50): the events that wait, then the first `n` of an endless source. -/
def rxStream (s : State) (n : Nat) : List RxEvent :=
  match s.source with
  | .silent => s.rx
  | .endless k => s.rx ++ (List.range n).map fun i => Config.freeRxEvent (k + i)

/-- The result registers hold the answer `fd` to a command `c`, status-bearing or not (41_decode.md R137, R138): the status
byte is `FD[2]` when there is one, and is dropped from the data when it is the success status and enough bytes remain. -/
def DeliveredAs (p : Config.Params) (bearing : Bool) (c : Byte) (fd : List Byte) (t : State) : Prop :=
  (bearing = false ∨ fd.length ≤ 2 → Delivered ⟨c, p.statusSuccess, fd.drop 2⟩ t) ∧
  (bearing = true → 2 < fd.length →
    (fd.getD 2 0 = p.statusSuccess ∧ 14 < (if p.quirkBasis = .a then fd.length - 2 else fd.length - 3) →
      Delivered ⟨c, fd.getD 2 0, fd.drop 3⟩ t) ∧
    (¬(fd.getD 2 0 = p.statusSuccess ∧ 14 < (if p.quirkBasis = .a then fd.length - 2 else fd.length - 3)) →
      Delivered ⟨c, fd.getD 2 0, fd.drop 2⟩ t))

/-- A step that neither faults nor is refused. -/
def SafeStep (s : State) : Prop := ∃ t, step s = .next t

/-- The register values that 10_state.md R38 and 70_reset_and_hazards.md R240 give after reset. -/
structure ResetRegisters (t : State) : Prop where
  op : t.op = 0
  cCmd : t.cCmd = 0x00
  cPlen : t.cPlen = 0
  busy : t.busy = false
  done : t.done = false
  rKind : t.rKind = .none
  rErr : t.rErr = .none
  rValid : t.rValid = false
  rCmd : t.rCmd = 0x00
  rStatus : t.rStatus = 0x00
  rLen : t.rLen = 0
  dstate : t.dstate = .idle
  xstate : t.xstate = .idle
  frames : t.frames = 0

/-- The states that runs reach. Each field names its rule. -/
structure Inv (s : State) : Prop where
  /-- the buffers have their capacities (20_memory.md R50) -/
  mem : Memory.wf s = true
  /-- `BUSY` and `DONE` are never both 1 (10_state.md R26) -/
  busyDone : ¬(s.busy = true ∧ s.done = true)
  /-- outside a running operation both sequencing states are idle (10_state.md R33) -/
  idle : s.busy = false → s.dstate = .idle ∧ s.xstate = .idle
  /-- the start step clears the outcome, and only completion writes it (10_state.md R23, R25) -/
  cleared : s.busy = true → s.rKind = .none ∧ s.rErr = .none
  /-- `R_ERR` is `E_NONE` exactly when `R_KIND` is not `ERR` (60_exceptions.md R210) -/
  errKind : s.rErr = .none ↔ s.rKind ≠ .err
  /-- a `DATA` outcome has set `R_VALID` (10_state.md R31) -/
  dataValid : s.rKind = .data → s.rValid = true
  /-- `R_LEN` never exceeds 253 (10_state.md R29) -/
  resultLen : s.rLen.toNat ≤ 253
  /-- until the first `DATA` outcome the Response Result has its reset values (10_state.md R30, R31, R38) -/
  fresh : s.rValid = false → s.rCmd = 0 ∧ s.rStatus = 0 ∧ s.rLen = 0
  /-- the send phase is inside one step (40_encode.md R113) -/
  noSend : s.xstate ≠ .send
  /-- a decoder running outside `SENDWAIT` runs for `DECODE` -/
  plainRun : s.dstate ≠ .idle → s.xstate = .idle → s.op = 2
  /-- `X_WAIT` is `SENDWAIT` with an inner decode run in progress (43_dispatch.md R176) -/
  waitRun : s.xstate = .wait → s.op = 3 ∧ s.dstate ≠ .idle ∧ s.params.hasDemux = true
  /-- at most `MAX_FRAMES` inner runs are made (43_dispatch.md R183) -/
  bound : ∀ m, s.params.maxFrames = some m → s.xstate = .wait → s.frames < m
  /-- the decoder's counters and the tests already passed (42_decode_fsm.md R161) -/
  hdr : s.dstate = .hdr → s.idx.toNat ≤ 2
  body : s.dstate = .body → s.idx.toNat ≤ s.len.toNat
  dcs : s.dstate = .dcs → 1 ≤ s.len.toNat ∧ s.len + s.lcs = 0
  post : s.dstate = .post → s.len + s.lcs = 0

end Sys2Proof.Machine
end

