-- ==== Sys2Proof/Certificates/Slice0/Obligations.lean ====
section
/-! DEFINITION. The statements about the Frame codec engine, rule by rule. Registers that a completion leaves unspecified
(10_state.md R34, U3) are named in no frame; every other register, both streams and the other agents are. -/

open Sys2Proof Sys2Proof.Machine

/-! ### Reset -/

/-- 10_state.md R38, 70_reset_and_hazards.md R240: every register whose value after reset the spec gives has that value
in `State.reset`. (The registers the rule calls unspecified have values there that are the model's choice, log entry 1;
nothing is said of them.) -/
def Obligations.ResetStateHasSpecifiedValues : Prop := ResetRegisters State.reset

/-- R241: the reset input may come at any time; it sets every register in one step and touches neither stream. A frame
being written when it strikes (by `ENCODE`, by `SENDWAIT`, or as `FRAME_OUT_DATA`) is cut after a part from its front: any
part, by the choice of `n`. (That an entry of the sink's answers stands for a reset during the write is log entry 4, that
`FRAME_OUT_DATA` by itself is such a write log entry 7: the model's choices.) -/
def Obligations.ResetInputSetsRegisters : Prop :=
  (∀ (s : State) (rest : List Turn), s.agenda = .host .reset :: rest →
    ∃ t, step s = .next t ∧ ResetRegisters t ∧ SameStreams s t ∧ t.params = s.params ∧ t.agenda = rest) ∧
  (∀ (s : State) (n : Nat), s.cPlen.toNat ≤ 253 → nextTxEvent s = .cut n →
    ∃ t, exec .encode s = .next t ∧ ResetRegisters t ∧ t.rx = s.rx ∧ t.source = s.source ∧
      t.tx = s.tx ++ (encodeFrame s.cCmd (s.cPay.take s.cPlen.toNat)).take n) ∧
  (∀ (s : State) (n : Nat), s.params.hasDemux = true → s.cPlen.toNat ≤ 253 → nextTxEvent s = .cut n →
    ∃ t, exec .sendwait s = .next t ∧ ResetRegisters t ∧ t.rx = s.rx ∧ t.source = s.source ∧
      t.tx = s.tx ++ (encodeFrame s.cCmd (s.cPay.take s.cPlen.toNat)).take n) ∧
  (∀ (s : State) (c : Byte) (p : List Byte) (n : Nat), p.length ≤ 253 → nextTxEvent s = .cut n →
    ∃ t, exec (.frameOutData c p) s = .next t ∧ ResetRegisters t ∧ t.rx = s.rx ∧ t.source = s.source ∧
      t.tx = s.tx ++ (encodeFrame c p).take n)

/-- The invariant holds after reset. It speaks of the buffers' capacities and of values the spec gives only. -/
def Obligations.ResetMeetsInvariant : Prop := Inv State.reset

/-! ### Whole-machine rules -/

/-- Every step keeps the invariant: the buffers' capacities (R50), `BUSY` and `DONE` (R26), the idle sequencing states
(R33), the outcome registers (R23, R210), `R_LEN` (R29), `R_VALID` (R31), the bound on inner runs (R183), the decoder's
counters and passed tests (R161). -/
def Obligations.StepKeepsInvariant : Prop :=
  ∀ s t : State, Inv s → step s = .next t → Inv t

/-- 20_memory.md R50, R52, R53, R57: the RX position only moves forward, by at most one event a step, and only while an
operation's decoder runs (so an idle block takes no event); events are added only at the end, by the source's own answers
only where the block requests and none waits; the TX stream is append only; the parameters never change. -/
def Obligations.StreamsOnlyMoveForward : Prop :=
  ∀ s t : State, step s = .next t →
    (t.rx = s.rx ∨ (t.rx = s.rx.tail ∧ s.busy = true ∧ s.dstate ≠ .idle) ∨ ∃ e, t.rx = s.rx ++ [e]) ∧
    (t.source = s.source ∨ ∃ k, s.source = .endless k ∧ t.source = .endless (k + 1) ∧ s.rx = [] ∧ s.busy = true ∧
      s.dstate ≠ .idle ∧ t.rx = [Config.freeRxEvent k]) ∧
    s.tx <+: t.tx ∧ t.params = s.params

/-- 10_state.md R21: the operand registers are written by the host (and by reset) only. -/
def Obligations.OperandsWrittenOnlyByHost : Prop :=
  ∀ s t : State, (∀ a rest, s.agenda ≠ .host a :: rest) → (∀ n rest, s.txAns ≠ .cut n :: rest) → step s = .next t →
    SameOperands s t

/-- 10_state.md R30, R31: apart from reset, the Response Result and `R_VALID` change only in a step that takes a
postamble, and outside `SENDWAIT` only when that step ends with `DATA`. -/
def Obligations.ResultsWrittenOnlyByData : Prop :=
  ∀ s t : State, (∀ rest, s.agenda ≠ .host .reset :: rest) → (∀ n rest, s.txAns ≠ .cut n :: rest) →
    step s = .next t → (s.dstate ≠ .post ∨ (s.xstate ≠ .wait ∧ t.rKind ≠ .data)) → SameResults s t

/-- 43_dispatch.md R180, R185: the wait ends successfully only with a data frame whose recovered command id is `W_CMD`
(in wire terms: TFI 0xD5, `LEN >= 2`, `FD[1] = W_CMD + 1`, a good postamble); an acknowledgement never does. -/
def Obligations.WaitEndsOnlyWithMatch : Prop :=
  ∀ s t : State, Inv s → s.xstate = .wait → step s = .next t → t.rKind = .data →
    s.dstate = .post ∧ (∃ rest, s.rx = .byte 0 :: rest) ∧ 2 ≤ s.len.toNat ∧ s.fd.getD 0 0 = 0xD5 ∧
      s.fd.getD 1 0 = s.wCmd + 1 ∧ t.rCmd = s.wCmd ∧ t.busy = false

/-! ### The host port and the other agents -/

/-- R23: the start step clears the outcome and sets `BUSY`, changing no other register; the block then runs the selected
operation; a start while `BUSY = 1` changes no register. (`OP = 3` without the demultiplexer: R22, next statement.) -/
def Obligations.StartBeginsOperation : Prop :=
  (∀ (s : State) (rest : List Turn), s.agenda = .host .start :: rest → s.busy = false →
    ¬(s.op = 3 ∧ s.params.hasDemux = false) →
    step s = .next { s with agenda := rest, busy := true, done := false, rKind := .none, rErr := .none }) ∧
  (∀ s s' : State, BlockMoves s s' → s.busy = true → s.dstate = .idle → s.xstate = .idle →
    step s = exec (decodeOp s.op) s') ∧
  (∀ (s : State) (rest : List Turn), s.agenda = .host .start :: rest → s.busy = true →
    step s = .next { s with agenda := rest })

/-- R22: the codes of `OP`, and the reserved one: without the demultiplexer starting `OP = 3` completes at once with
`E_BADOP` and does nothing else. -/
def Obligations.ReservedOpRaisesBadOp : Prop :=
  (decodeOp 0 = .nop ∧ decodeOp 1 = .encode ∧ decodeOp 2 = .decode ∧ decodeOp 3 = .sendwait) ∧
  (∀ (s : State) (rest : List Turn), s.agenda = .host .start :: rest → s.busy = false → s.op = 3 →
    s.params.hasDemux = false →
    ∃ t, step s = .next t ∧ Completed .err .badOp s t ∧ SameOperands s t ∧ SameResults s t ∧ SameStreams s t)

/-- R58, R251: the host writes one operand register while `BUSY = 0`, and a model refuses it while `BUSY = 1`. -/
def Obligations.HostWritesOperands : Prop :=
  (∀ (s : State) (rest : List Turn) (v : BitVec 2), s.agenda = .host (.writeOp v) :: rest →
    step s = if s.busy then .refused .operandWriteWhileBusy else .next { s with agenda := rest, op := v }) ∧
  (∀ (s : State) (rest : List Turn) (v : Byte), s.agenda = .host (.writeCmd v) :: rest →
    step s = if s.busy then .refused .operandWriteWhileBusy else .next { s with agenda := rest, cCmd := v }) ∧
  (∀ (s : State) (rest : List Turn) (v : Byte), s.agenda = .host (.writePlen v) :: rest →
    step s = if s.busy then .refused .operandWriteWhileBusy else .next { s with agenda := rest, cPlen := v }) ∧
  (∀ (s : State) (rest : List Turn) (i : Fin 253) (v : Byte), s.agenda = .host (.writePay i v) :: rest →
    step s = if s.busy then .refused .operandWriteWhileBusy
      else .next { s with agenda := rest, cPay := s.cPay.set i.val v })

/-- R58, U11: a read has no side effect on the block, and gives the register's value: any readable register while the
block is idle, `BUSY`, `DONE`, `R_KIND` and `R_ERR` always (what a busy block gives for the others is left open). The codes
are those of R27 and R210. (That a register narrower than a byte is read with zeros above it is the model's choice, log
entry 5.) -/
def Obligations.HostReadHasNoSideEffect : Prop :=
  ∀ (s : State) (rest : List Turn) (r : HostReg), s.agenda = .host (.read r) :: rest →
    ∃ t, step s = .next t ∧ SameOperands s t ∧ SameOutcome s t ∧ SameResults s t ∧ SameDecoder s t ∧ SameDemux s t ∧
      SameStreams s t ∧ t.txb = s.txb ∧ t.params = s.params ∧ t.agenda = rest ∧
      ((s.busy = false ∨ r = .busy ∨ r = .done ∨ r = .rKind ∨ r = .rErr) →
        t.hostRead =
          match r with
          | .busy => if s.busy = true then 1 else 0
          | .done => if s.done = true then 1 else 0
          | .rKind =>
            match s.rKind with
            | .none => 0
            | .ack => 1
            | .data => 2
            | .err => 3
          | .rErr =>
            match s.rErr with
            | .none => 0
            | .tx => 1
            | .rx => 2
            | .lcs => 3
            | .dcs => 4
            | .postamble => 5
            | .direction => 6
            | .frameLen => 7
            | .payload => 8
            | .timeout => 9
            | .badOp => 10
          | .rValid => if s.rValid = true then 1 else 0
          | .rCmd => s.rCmd
          | .rStatus => s.rStatus
          | .rLen => s.rLen
          | .rData i => s.rData.getD i.val 0)

/-- R53: an event that arrives waits in order at the end of the RX stream, and nothing else changes. -/
def Obligations.ArrivingEventWaits : Prop :=
  ∀ (s : State) (rest : List Turn) (e : RxEvent), s.agenda = .rx e :: rest →
    step s = .next { s with agenda := rest, rx := s.rx ++ [e] }

/-- R153, R54: while the RX source is silent the block waits, `BUSY` stays 1, and no step changes anything, whether the host
has nothing to do or waits for the end. -/
def Obligations.SilentSourceHangs : Prop :=
  ∀ s : State, (s.agenda = [] ∨ ∃ rest, s.agenda = .await :: rest) → s.busy = true → s.dstate ≠ .idle → s.rx = [] →
    s.source = .silent → ∀ k, Host.Core.run core k s = .next s

/-! ### A step runs the decoded instruction -/

/-- Where the block's move is next (the agenda is empty, or an `fce` at its head is used up, or the host waits while
`BUSY = 1`; log entry 2): an idle block leaves every register and both streams as they are; a started operation runs the
instruction that `OP` selects; a running decoder runs the row of the classification that the next RX event meets, goes on
with a byte that meets none, waits while the source is silent, and is answered by an endless source, whose event arrives
first. A wait of the host's is used up when `BUSY = 0`. -/
def Obligations.StepRunsInstruction : Prop :=
  (∀ s s' : State, BlockMoves s s' →
    (s.busy = false → step s = .next s') ∧
    (s.busy = true → s.dstate = .idle → s.xstate = .idle → step s = exec (decodeOp s.op) s') ∧
    (∀ r, pendingRow s = some r → step s = exec (rowInstr r) s') ∧
    (∀ b rest, s.busy = true → s.dstate ≠ .idle → s.rx = .byte b :: rest → pendingRow s = none →
      step s = .next (advance b { s' with rx := rest })) ∧
    (s.busy = true → s.dstate ≠ .idle → s.rx = [] → s.source = .silent → step s = .next s') ∧
    (∀ k, s.busy = true → s.dstate ≠ .idle → s.rx = [] → s.source = .endless k →
      step s = .next { s with rx := [Config.freeRxEvent k], source := .endless (k + 1) })) ∧
  (∀ (s : State) (rest : List Turn), s.agenda = .await :: rest → s.busy = false → step s = .next (s.withAgenda rest))

/-- A few encodings written out from the spec decode to what they stand for: the operation select (R101), the block-read
command (V1), its answer (V12), the acknowledgement (R83), ids 0x40 and 0x42 (R90), `R_KIND` 1 (R27), `R_ERR` 5 (R210)
and row 8 (R94). -/
def Obligations.SpecWordsDecode : Prop :=
  decode 0x42 .op [0x03] = .ok (.sendwait, []) ∧
  decode 0x42 .frame [0x00, 0x00, 0xFF, 0x05, 0xFB, 0xD4, 0x40, 0x01, 0x20, 0x00, 0xCB, 0x00] =
    .ok (.frameOutData 0x40 [0x01, 0x20, 0x00], []) ∧
  decode 0x42 .frame [0x00, 0x00, 0xFF, 0x03, 0xFD, 0xD5, 0x41, 0x00, 0xEA, 0x00] =
    .ok (.frameInData 0x00 0xFF 0x41 [0x00], []) ∧
  decode 0x42 .frame [0x00, 0x00, 0xFF, 0x00, 0x00, 0x00] = .ok (.frameAck 0x00 0xFF, []) ∧
  decode 0x42 .cmdid [0x40] = .ok (.cmdDataExchange, []) ∧ decode 0x42 .cmdid [0x42] = .ok (.cmdCommThru, []) ∧
  decode 0x42 .kind [0x01] = .ok (.kindAck, []) ∧ decode 0x42 .error [0x05] = .ok (.errPostamble, []) ∧
  decode 0x42 .cls [0x08] = .ok (.class8, [])

/-- Decoding the encoding of a well-formed instruction gives it back, for every operand, every value of the parameter
`CMD_COMM_THRU`, and whatever bytes follow. -/
def Obligations.DecodeOfEncodeIsIdentity : Prop :=
  ∀ (thru : Byte) (i : Instr) (rest : List Byte), wellFormed thru i = true →
    decode thru (formatOf i) (encode thru i ++ rest) = .ok (i, rest)

/-- Every byte sequence that decodes is the encoding of what it decodes to, followed by the bytes left: no two byte
sequences of a format mean the same instruction, and what decodes is well-formed, whatever `CMD_COMM_THRU` is. -/
def Obligations.EncodeOfDecodeIsIdentity : Prop :=
  ∀ (thru : Byte) (f : Format) (bs rest : List Byte) (i : Instr), decode thru f bs = .ok (i, rest) →
    encode thru i ++ rest = bs ∧ formatOf i = f ∧ wellFormed thru i = true

/-! ### The operations -/

/-- R24: `NOP` completes at once with `NONE` and no error; operands, result registers and both streams stay. -/
def Obligations.NopCompletes : Prop :=
  ∀ s : State, ∃ t, exec .nop s = .next t ∧ Completed .none .none s t ∧ SameOperands s t ∧ SameResults s t ∧
    SameStreams s t ∧ SameAgents s t ∧ t.txAns = s.txAns

/-- R110, R111, R113: an over-long payload ends with `E_PAYLOAD` and nothing is written; else the frame of `C_CMD` and
`C_PAY[0:C_PLEN]` is written and the operation ends `NONE` on `Ok`, and with `E_TX` and a part from the frame's front
written on `Fail`. Where the state lists no answer of the sink, it is one of these two, and which is left open. -/
def Obligations.EncodeWritesFrame : Prop :=
  ∀ s : State,
    (253 < s.cPlen.toNat → ∃ t, exec .encode s = .next t ∧ Completed .err .payload s t ∧ SameOperands s t ∧
      SameResults s t ∧ SameStreams s t ∧ SameAgents s t ∧ t.txAns = s.txAns) ∧
    (s.cPlen.toNat ≤ 253 → nextTxEvent s = .answer .ok →
      ∃ t, exec .encode s = .next t ∧ Completed .none .none s t ∧ SameOperands s t ∧ SameResults s t ∧
        t.rx = s.rx ∧ t.tx = s.tx ++ encodeFrame s.cCmd (s.cPay.take s.cPlen.toNat) ∧ SameAgents s t ∧
        t.txAns = s.txAns.tail) ∧
    (s.cPlen.toNat ≤ 253 → ∀ n, nextTxEvent s = .answer (.fail n) →
      ∃ t, exec .encode s = .next t ∧ Completed .err .tx s t ∧ SameOperands s t ∧ SameResults s t ∧
        t.rx = s.rx ∧ t.tx = s.tx ++ (encodeFrame s.cCmd (s.cPay.take s.cPlen.toNat)).take n ∧ SameAgents s t ∧
        t.txAns = s.txAns.tail) ∧
    (s.txAns = [] → ∃ a, nextTxEvent s = .answer a)

/-- R151: the run begins with `DSTATE <- D_SYNC`, and nothing else is written. -/
def Obligations.DecodeBeginsScan : Prop :=
  ∀ s : State, exec .decode s = .next { s with dstate := .sync }

/-- R175, R177, R36: `SENDWAIT` latches the command id, clears the counter, writes the frame once and moves to the wait
phase, its first inner run scanning for a preamble; with `MAX_FRAMES = 0` it has sent and times out; a failed send phase
consumes no RX byte. -/
def Obligations.SendwaitSends : Prop :=
  ∀ s : State, s.params.hasDemux = true →
    (s.cPlen.toNat ≤ 253 → nextTxEvent s = .answer .ok → s.params.maxFrames ≠ some 0 →
      ∃ t, exec .sendwait s = .next t ∧ t.xstate = .wait ∧ t.dstate = .sync ∧ t.wCmd = s.cCmd ∧ t.frames = 0 ∧
        SameOutcome s t ∧ SameOperands s t ∧ SameResults s t ∧ t.rx = s.rx ∧
        t.tx = s.tx ++ encodeFrame s.cCmd (s.cPay.take s.cPlen.toNat) ∧ SameAgents s t ∧ t.txAns = s.txAns.tail) ∧
    (s.cPlen.toNat ≤ 253 → nextTxEvent s = .answer .ok → s.params.maxFrames = some 0 →
      ∃ t, exec .sendwait s = .next t ∧ Completed .err .timeout s t ∧ SameOperands s t ∧ SameResults s t ∧
        t.rx = s.rx ∧ t.tx = s.tx ++ encodeFrame s.cCmd (s.cPay.take s.cPlen.toNat) ∧ SameAgents s t) ∧
    (s.cPlen.toNat ≤ 253 → ∀ n, nextTxEvent s = .answer (.fail n) →
      ∃ t, exec .sendwait s = .next t ∧ Completed .err .tx s t ∧ SameOperands s t ∧ SameResults s t ∧ t.rx = s.rx ∧
        t.tx = s.tx ++ (encodeFrame s.cCmd (s.cPay.take s.cPlen.toNat)).take n ∧ SameAgents s t) ∧
    (253 < s.cPlen.toNat → ∃ t, exec .sendwait s = .next t ∧ Completed .err .payload s t ∧ SameOperands s t ∧
      SameResults s t ∧ SameStreams s t ∧ SameAgents s t)

/-- R22: without the demultiplexer `SENDWAIT` raises `E_BADOP` and does nothing else. (The rule speaks of starting `OP = 3`, where
the start step raises it; that the instruction by itself, which no run then reaches, raises it too is the model's choice,
log entry 11.) -/
def Obligations.SendwaitWithoutDemux : Prop :=
  ∀ s : State, s.params.hasDemux = false → ∃ t, exec .sendwait s = .next t ∧ Completed .err .badOp s t ∧
    SameOperands s t ∧ SameResults s t ∧ SameStreams s t ∧ SameDemux s t ∧ SameAgents s t

/-! ### The frames -/

/-- R112, R84: the bytes of `EncodeFrame(c, P)`, the checksums computed over the naturals. -/
def Obligations.EncodeFrameLayout : Prop :=
  ∀ (c : Byte) (p : List Byte), p.length ≤ 253 →
    encodeFrame c p = [0x00, 0x00, 0xFF, BitVec.ofNat 8 (2 + p.length), BitVec.ofNat 8 (256 - (2 + p.length)), 0xD4, c]
      ++ p ++ [BitVec.ofNat 8 (256 - (0xD4 + c.toNat + (p.map BitVec.toNat).sum) % 256), 0x00]

/-- R114, R115: the two checksum laws of every frame the encoder produces. -/
def Obligations.EncoderChecksumLaws : Prop :=
  ∀ (c : Byte) (p : List Byte), p.length ≤ 253 →
    (((encodeFrame c p).getD 3 0).toNat + ((encodeFrame c p).getD 4 0).toNat) % 256 = 0 ∧
    ((((encodeFrame c p).drop 5).take ((encodeFrame c p).getD 3 0).toNat).map BitVec.toNat).sum % 256 +
      ((encodeFrame c p).getD (5 + ((encodeFrame c p).getD 3 0).toNat) 0).toNat ≡ 0 [MOD 256]

/-- R112: `EncodeFrame` is injective in the command id and the payload, and its frames have `9 + len(P)` bytes. -/
def Obligations.EncodeFrameInjective : Prop :=
  ∀ (c c' : Byte) (p p' : List Byte), p.length ≤ 253 → p'.length ≤ 253 → encodeFrame c p = encodeFrame c' p' →
    c = c' ∧ p = p' ∧ (encodeFrame c p).length = 9 + p.length

/-- R96, R120: a frame of the encoder, fed back to `DECODE`, passes every structural test and fails with `E_DIRECTION`,
wholly consumed. -/
def Obligations.EncoderFrameIsRejected : Prop :=
  ∀ (p : Config.Params) (c : Byte) (q : List Byte) (more : List RxEvent), q.length ≤ 253 →
    decodeRun p ((encodeFrame c q).map .byte ++ more) = .ended (.err .direction) more

/-- R84, R113, R177: `FRAME_OUT_DATA` is the write of that frame: `NONE` on `Ok`, or in the send phase of `SENDWAIT` the
wait phase; `E_TX` on `Fail`; `E_PAYLOAD` for a payload that is too long. -/
def Obligations.FrameOutDataIsWritten : Prop :=
  ∀ (s : State) (c : Byte) (p : List Byte),
    (p.length ≤ 253 → nextTxEvent s = .answer .ok → s.xstate ≠ .send →
      ∃ t, exec (.frameOutData c p) s = .next t ∧ Completed .none .none s t ∧ SameOperands s t ∧ SameResults s t ∧
        t.rx = s.rx ∧ t.tx = s.tx ++ encodeFrame c p ∧ SameAgents s t) ∧
    (p.length ≤ 253 → nextTxEvent s = .answer .ok → s.xstate = .send → s.params.maxFrames ≠ some s.frames →
      ∃ t, exec (.frameOutData c p) s = .next t ∧ t.xstate = .wait ∧ t.dstate = .sync ∧ t.wCmd = s.wCmd ∧
        t.frames = s.frames ∧ SameOutcome s t ∧ SameOperands s t ∧ SameResults s t ∧ t.rx = s.rx ∧
        t.tx = s.tx ++ encodeFrame c p ∧ SameAgents s t) ∧
    (p.length ≤ 253 → nextTxEvent s = .answer .ok → s.xstate = .send → s.params.maxFrames = some s.frames →
      ∃ t, exec (.frameOutData c p) s = .next t ∧ Completed .err .timeout s t ∧ SameOperands s t ∧ SameResults s t ∧
        t.rx = s.rx ∧ t.tx = s.tx ++ encodeFrame c p ∧ SameAgents s t) ∧
    (p.length ≤ 253 → ∀ n, nextTxEvent s = .answer (.fail n) →
      ∃ t, exec (.frameOutData c p) s = .next t ∧ Completed .err .tx s t ∧ SameOperands s t ∧ SameResults s t ∧
        t.rx = s.rx ∧ t.tx = s.tx ++ (encodeFrame c p).take n ∧ SameAgents s t) ∧
    (253 < p.length → ∃ t, exec (.frameOutData c p) s = .next t ∧ Completed .err .payload s t ∧ SameOperands s t ∧
      SameResults s t ∧ SameStreams s t ∧ SameAgents s t)

/-- R53, R163: an inbound frame that arrives while the block asks for no byte waits, whole and in order, in the RX
stream; nothing else changes. (That these rows by themselves are the arrival of their bytes is the model's choice, log
entry 7.) -/
def Obligations.InboundFrameWaits : Prop :=
  ∀ s : State, (s.busy = false ∨ s.dstate = .idle) →
    (∀ (s1 s2 e : Byte) (q : List Byte), exec (.frameInData s1 s2 e q) s =
      .next { s with rx := s.rx ++ (encode 0x42 (.frameInData s1 s2 e q)).map .byte }) ∧
    (∀ s1 s2 : Byte, exec (.frameAck s1 s2) s =
      .next { s with rx := s.rx ++ (encode 0x42 (.frameAck s1 s2)).map .byte })

/-- R83, R134, R181: an acknowledgement frame that arrives at a decoder scanning for a preamble ends `DECODE` with `ACK`,
the result registers unaltered, and is skipped by `SENDWAIT`; its start codes do not matter (R99). (That the row by itself is
the arrival of its bytes, the decoder taking each, is the model's choice, log entry 7.) -/
def Obligations.AckFrameAccepted : Prop :=
  ∀ (s : State) (s1 s2 : Byte), s.busy = true → s.dstate = .sync → s.rx = [] →
    (s.xstate = .idle → ∃ t, exec (.frameAck s1 s2) s = .next t ∧ Completed .ack .none s t ∧ SameOperands s t ∧
      SameResults s t ∧ SameStreams s t ∧ SameAgents s t) ∧
    (s.xstate = .wait → s.params.maxFrames ≠ some (s.frames + 1) →
      ∃ t, exec (.frameAck s1 s2) s = .next t ∧ t.xstate = .wait ∧ t.dstate = .sync ∧ t.frames = s.frames + 1 ∧
        t.wCmd = s.wCmd ∧ SameOutcome s t ∧ SameOperands s t ∧ SameResults s t ∧ SameStreams s t ∧ SameAgents s t) ∧
    (s.xstate = .wait → s.params.maxFrames = some (s.frames + 1) →
      ∃ t, exec (.frameAck s1 s2) s = .next t ∧ Completed .err .timeout s t ∧ SameOperands s t ∧ SameResults s t ∧
        SameStreams s t ∧ SameAgents s t)

/-- R85, R139, R179 to R181: an inbound data frame that arrives at a decoder scanning for a preamble is delivered: the
response is that of its frame data, whatever its start codes (R99). It ends `DECODE`; inside `SENDWAIT` it ends the wait
if its command id is the one waited for, and otherwise is skipped, or the last run the bound allows. (That the row by itself
is the arrival of its bytes, the decoder taking each, is the model's choice, log entry 7.) -/
def Obligations.InboundFrameDelivered : Prop :=
  ∀ (s : State) (s1 s2 e : Byte) (q : List Byte), q.length ≤ 253 → Memory.wf s = true → s.busy = true →
    s.dstate = .sync → s.rx = [] →
    (s.xstate = .idle → ∃ t, exec (.frameInData s1 s2 e q) s = .next t ∧ Completed .data .none s t ∧
      Delivered (response s.params (0xD5 :: e :: q)) t ∧ SameOperands s t ∧ SameStreams s t ∧ SameAgents s t) ∧
    (s.xstate = .wait → e = s.wCmd + 1 →
      ∃ t, exec (.frameInData s1 s2 e q) s = .next t ∧ Completed .data .none s t ∧
        Delivered (response s.params (0xD5 :: e :: q)) t ∧ SameOperands s t ∧ SameStreams s t ∧ SameAgents s t) ∧
    (s.xstate = .wait → e ≠ s.wCmd + 1 → s.params.maxFrames ≠ some (s.frames + 1) →
      ∃ t, exec (.frameInData s1 s2 e q) s = .next t ∧ Delivered (response s.params (0xD5 :: e :: q)) t ∧
        t.xstate = .wait ∧ t.dstate = .sync ∧ t.frames = s.frames + 1 ∧ t.wCmd = s.wCmd ∧ SameOutcome s t ∧
        SameOperands s t ∧ SameStreams s t ∧ SameAgents s t) ∧
    (s.xstate = .wait → e ≠ s.wCmd + 1 → s.params.maxFrames = some (s.frames + 1) →
      ∃ t, exec (.frameInData s1 s2 e q) s = .next t ∧ Completed .err .timeout s t ∧
        Delivered (response s.params (0xD5 :: e :: q)) t ∧ SameOperands s t ∧ SameStreams s t ∧ SameAgents s t)

/-! ### The classification -/

/-- R126, R159: an `Err` event in any state of the decoder ends the operation with `E_RX`; the event is consumed. -/
def Obligations.ClassOneRaisesRx : Prop :=
  ∀ (s : State) (rest : List RxEvent), s.busy = true → s.dstate ≠ .idle → s.rx = .err :: rest →
    ∃ t, exec .class1 s = .next t ∧ Completed .err .rx s t ∧ t.rx = rest ∧ t.tx = s.tx ∧ SameOperands s t ∧
      SameResults s t ∧ SameAgents s t

/-- R131: after the last body byte a length checksum that does not fit ends the operation with `E_LCS`. -/
def Obligations.ClassTwoRaisesLcs : Prop :=
  ∀ (s : State) (b : Byte) (rest : List RxEvent), s.busy = true → s.dstate = .body → s.rx = .byte b :: rest →
    s.idx.toNat = s.len.toNat → s.len + (if s.idx = 0 then b else s.lcs) ≠ 0 →
    ∃ t, exec .class2 s = .next t ∧ Completed .err .lcs s t ∧ t.rx = rest ∧ t.tx = s.tx ∧ SameOperands s t ∧
      SameResults s t ∧ SameAgents s t

/-- R132: a data checksum that does not fit ends the operation with `E_DCS`. -/
def Obligations.ClassThreeRaisesDcs : Prop :=
  ∀ (s : State) (b : Byte) (rest : List RxEvent), s.busy = true → s.dstate = .dcs → s.rx = .byte b :: rest →
    sum8 (s.fd.take s.len.toNat) + b ≠ 0 →
    ∃ t, exec .class3 s = .next t ∧ Completed .err .dcs s t ∧ t.rx = rest ∧ t.tx = s.tx ∧ SameOperands s t ∧
      SameResults s t ∧ SameAgents s t

/-- R133: a byte other than 0x00 in the postamble position ends the operation with `E_POSTAMBLE`. -/
def Obligations.ClassFourRaisesPostamble : Prop :=
  ∀ (s : State) (b : Byte) (rest : List RxEvent), s.busy = true → s.dstate = .post → s.rx = .byte b :: rest → b ≠ 0 →
    ∃ t, exec .class4 s = .next t ∧ Completed .err .postamble s t ∧ t.rx = rest ∧ t.tx = s.tx ∧ SameOperands s t ∧
      SameResults s t ∧ SameAgents s t

/-- R134, R181, R183: a whole frame with `LEN = 0` ends `DECODE` with `ACK`; `SENDWAIT` skips it, and times out if that
was the last run the bound allows. -/
def Obligations.ClassFiveAcknowledges : Prop :=
  ∀ (s : State) (rest : List RxEvent), s.busy = true → s.dstate = .post → s.rx = .byte 0 :: rest → s.len = 0 →
    (s.xstate ≠ .wait → ∃ t, exec .class5 s = .next t ∧ Completed .ack .none s t ∧ t.rx = rest ∧ t.tx = s.tx ∧
      SameOperands s t ∧ SameResults s t ∧ SameAgents s t) ∧
    (s.xstate = .wait → s.params.maxFrames ≠ some (s.frames + 1) →
      ∃ t, exec .class5 s = .next t ∧ t.xstate = .wait ∧ t.dstate = .sync ∧ t.frames = s.frames + 1 ∧ t.wCmd = s.wCmd ∧
        t.rx = rest ∧ t.tx = s.tx ∧ SameOutcome s t ∧ SameOperands s t ∧ SameResults s t ∧ SameAgents s t) ∧
    (s.xstate = .wait → s.params.maxFrames = some (s.frames + 1) →
      ∃ t, exec .class5 s = .next t ∧ Completed .err .timeout s t ∧ t.rx = rest ∧ t.tx = s.tx ∧ SameOperands s t ∧
        SameResults s t ∧ SameAgents s t)

/-- R135: a whole frame with `LEN > 0` whose TFI is not 0xD5 ends the operation with `E_DIRECTION`. -/
def Obligations.ClassSixRaisesDirection : Prop :=
  ∀ (s : State) (rest : List RxEvent), s.busy = true → s.dstate = .post → s.rx = .byte 0 :: rest → s.len ≠ 0 →
    s.fd.getD 0 0 ≠ 0xD5 →
    ∃ t, exec .class6 s = .next t ∧ Completed .err .direction s t ∧ t.rx = rest ∧ t.tx = s.tx ∧ SameOperands s t ∧
      SameResults s t ∧ SameAgents s t

/-- R136: a whole inbound frame with `LEN = 1` ends the operation with `E_FRAMELEN`. -/
def Obligations.ClassSevenRaisesFrameLen : Prop :=
  ∀ (s : State) (rest : List RxEvent), s.busy = true → s.dstate = .post → s.rx = .byte 0 :: rest → s.len = 1 →
    s.fd.getD 0 0 = 0xD5 →
    ∃ t, exec .class7 s = .next t ∧ Completed .err .frameLen s t ∧ t.rx = rest ∧ t.tx = s.tx ∧ SameOperands s t ∧
      SameResults s t ∧ SameAgents s t

/-- R139, R179 to R181, R183: a whole inbound frame with `LEN >= 2` is delivered: it ends `DECODE` with `DATA`; inside
`SENDWAIT` it writes the result registers in any case, and then ends the wait if it matches, is skipped if it does not,
or times out at the bound. -/
def Obligations.ClassEightDelivers : Prop :=
  ∀ (s : State) (rest : List RxEvent), s.busy = true → s.dstate = .post → s.rx = .byte 0 :: rest → 2 ≤ s.len.toNat →
    s.fd.getD 0 0 = 0xD5 →
    (s.xstate ≠ .wait → ∃ t, exec .class8 s = .next t ∧ Completed .data .none s t ∧
      Delivered (response s.params (s.fd.take s.len.toNat)) t ∧ t.rx = rest ∧ t.tx = s.tx ∧ SameOperands s t ∧
      SameAgents s t) ∧
    (s.xstate = .wait → recoveredCmd (s.fd.take s.len.toNat) = s.wCmd →
      ∃ t, exec .class8 s = .next t ∧ Completed .data .none s t ∧
        Delivered (response s.params (s.fd.take s.len.toNat)) t ∧ t.rx = rest ∧ t.tx = s.tx ∧ SameOperands s t ∧
        SameAgents s t) ∧
    (s.xstate = .wait → recoveredCmd (s.fd.take s.len.toNat) ≠ s.wCmd → s.params.maxFrames ≠ some (s.frames + 1) →
      ∃ t, exec .class8 s = .next t ∧ Delivered (response s.params (s.fd.take s.len.toNat)) t ∧ t.xstate = .wait ∧
        t.dstate = .sync ∧ t.frames = s.frames + 1 ∧ t.wCmd = s.wCmd ∧ t.rx = rest ∧ t.tx = s.tx ∧ SameOutcome s t ∧
        SameOperands s t ∧ SameAgents s t) ∧
    (s.xstate = .wait → recoveredCmd (s.fd.take s.len.toNat) ≠ s.wCmd → s.params.maxFrames = some (s.frames + 1) →
      ∃ t, exec .class8 s = .next t ∧ Completed .err .timeout s t ∧
        Delivered (response s.params (s.fd.take s.len.toNat)) t ∧ t.rx = rest ∧ t.tx = s.tx ∧ SameOperands s t ∧
        SameAgents s t)

/-- R94: a row that the next event does not meet does nothing; in particular no row is applied early. (That a row is then
without effect is the model's choice, log entry 7.) -/
def Obligations.UnmetRowDoesNothing : Prop :=
  ∀ (s : State) (r : ClassRow), pendingRow s ≠ some r → exec (rowInstr r) s = .next s

/-! ### Command ids, kinds, errors -/

/-- R90, R138: the delivery of the decoder's frame data as the answer to a status-bearing command (`CMD_DATA_EXCHANGE`,
`CMD_COMM_THRU`): the status byte is `FD[2]` when there is one, and is dropped from the data when it is the success
status and enough bytes remain. Outside `SENDWAIT`. -/
def Obligations.StatusBearingDelivery : Prop :=
  ∀ (s : State) (i : Instr) (c : Byte), s.xstate ≠ .wait →
    ((i = .cmdDataExchange ∧ c = 0x40) ∨ (i = .cmdCommThru ∧ c = s.params.cmdCommThru)) →
    ∃ t, exec i s = .next t ∧ Completed .data .none s t ∧ SameOperands s t ∧ SameStreams s t ∧ SameAgents s t ∧
      ((frameData s).length ≤ 2 → Delivered ⟨c, s.params.statusSuccess, (frameData s).drop 2⟩ t) ∧
      (2 < (frameData s).length →
        ((frameData s).getD 2 0 = s.params.statusSuccess ∧
            14 < (if s.params.quirkBasis = .a then (frameData s).length - 2 else (frameData s).length - 3) →
          Delivered ⟨c, (frameData s).getD 2 0, (frameData s).drop 3⟩ t) ∧
        (¬((frameData s).getD 2 0 = s.params.statusSuccess ∧
            14 < (if s.params.quirkBasis = .a then (frameData s).length - 2 else (frameData s).length - 3)) →
          Delivered ⟨c, (frameData s).getD 2 0, (frameData s).drop 2⟩ t))

/-- R137: every other command reports the success status and leaves the whole response data. Outside `SENDWAIT`. -/
def Obligations.OtherCommandDelivery : Prop :=
  ∀ (s : State) (c : Byte), s.xstate ≠ .wait →
    ∃ t, exec (.cmdOther c) s = .next t ∧ Completed .data .none s t ∧
      Delivered ⟨c, s.params.statusSuccess, (frameData s).drop 2⟩ t ∧ SameOperands s t ∧ SameStreams s t ∧
      SameAgents s t

/-- R179 to R181: the same rows inside `SENDWAIT`: the result registers (`R_VALID`, `R_CMD`, `R_STATUS`, `R_LEN`, `R_DATA`) are
written in any case, with the status and data of R137 and R138, and the wait ends if the command id is the one waited for;
otherwise the frame is skipped, or was the last the bound allows. (That a command id's row by itself is this delivery is the
model's choice, log entry 7.) -/
def Obligations.CommandRowsInWait : Prop :=
  ∀ (s : State) (i : Instr) (c : Byte) (bearing : Bool), s.xstate = .wait →
    ((i = .cmdDataExchange ∧ c = 0x40 ∧ bearing = true) ∨
      (i = .cmdCommThru ∧ c = s.params.cmdCommThru ∧ bearing = true) ∨ (i = .cmdOther c ∧ bearing = false)) →
    (c = s.wCmd → ∃ t, exec i s = .next t ∧ Completed .data .none s t ∧
      DeliveredAs s.params bearing c (s.fd.take s.len.toNat) t ∧ SameOperands s t ∧ SameStreams s t ∧ SameAgents s t) ∧
    (c ≠ s.wCmd → s.params.maxFrames ≠ some (s.frames + 1) →
      ∃ t, exec i s = .next t ∧ DeliveredAs s.params bearing c (s.fd.take s.len.toNat) t ∧ t.xstate = .wait ∧
        t.dstate = .sync ∧ t.frames = s.frames + 1 ∧ t.wCmd = s.wCmd ∧ SameOutcome s t ∧ SameOperands s t ∧
        SameStreams s t ∧ SameAgents s t) ∧
    (c ≠ s.wCmd → s.params.maxFrames = some (s.frames + 1) →
      ∃ t, exec i s = .next t ∧ Completed .err .timeout s t ∧
        DeliveredAs s.params bearing c (s.fd.take s.len.toNat) t ∧ SameOperands s t ∧ SameStreams s t ∧ SameAgents s t)

/-- R25, R27, R30: the outcome kinds `NONE`, `ACK` and `ERR` as completions: the result registers keep their values. The
row `E_NONE` is the completion without an error. (That a kind's row is the completion with that kind, and what `E_NONE`
does, are the model's choice, log entry 7.) -/
def Obligations.KindsComplete : Prop :=
  ∀ s : State,
    (∃ t, exec .kindNone s = .next t ∧ Completed .none .none s t ∧ SameOperands s t ∧ SameResults s t ∧
      SameStreams s t ∧ SameAgents s t) ∧
    (∃ t, exec .kindAck s = .next t ∧ Completed .ack .none s t ∧ SameOperands s t ∧ SameResults s t ∧
      SameStreams s t ∧ SameAgents s t) ∧
    (∀ e, e ≠ .none → ∃ t, exec (.kindErr e) s = .next t ∧ Completed .err e s t ∧ SameOperands s t ∧ SameResults s t ∧
      SameStreams s t ∧ SameAgents s t) ∧
    (∃ t, exec .errNone s = .next t ∧ Completed .none .none s t ∧ SameOperands s t ∧ SameResults s t ∧
      SameStreams s t ∧ SameAgents s t)

/-- R139: a `DATA` outcome is delivered atomically with the completion, whatever the status. (That the row `DATA` by itself is
this completion is the model's choice, log entry 7.) -/
def Obligations.KindDataDelivers : Prop :=
  ∀ s : State, ∃ t, exec .kindData s = .next t ∧ Completed .data .none s t ∧
    Delivered (response s.params (frameData s)) t ∧ SameOperands s t ∧ SameStreams s t ∧ SameAgents s t

/-- R215, R216: raising an error (`E_TX`, `E_RX`, `E_LCS`, `E_DCS`, `E_POSTAMBLE`, `E_DIRECTION`, `E_FRAMELEN`, `E_PAYLOAD`,
`E_TIMEOUT`, `E_BADOP`) is the completion with `R_KIND = ERR` and its code, and leaves the operands, the result registers
and the streams as they were. (That an error's row by itself is its raise is the model's choice, log entry 7.) -/
def Obligations.ErrorRowsRaise : Prop :=
  ∀ (s : State) (e : ErrCode), e ≠ .none → ∃ t, exec (errRow e) s = .next t ∧ Completed .err e s t ∧
    SameOperands s t ∧ SameResults s t ∧ SameStreams s t ∧ SameAgents s t

/-! ### The decoder's transitions, wherever the block's move is next -/

/-- R154: a byte in `D_SYNC`: a non-zero byte is discarded, 0x00 is the preamble; nothing else is written. -/
def Obligations.SyncTakesByte : Prop :=
  ∀ (s s' : State) (b : Byte) (rest : List RxEvent), BlockMoves s s' → s.busy = true → s.dstate = .sync →
    s.rx = .byte b :: rest →
    (b ≠ 0 → step s = .next { s' with rx := rest }) ∧
    (b = 0 → step s = .next { s' with rx := rest, idx := 0, dstate := .hdr })

/-- R155: a byte in `D_HDR`: two start codes are discarded without test, the third byte is `LEN`. -/
def Obligations.HeaderTakesByte : Prop :=
  ∀ (s s' : State) (b : Byte) (rest : List RxEvent), BlockMoves s s' → s.busy = true → s.dstate = .hdr →
    s.rx = .byte b :: rest →
    (s.idx = 0 ∨ s.idx = 1 → step s = .next { s' with rx := rest, idx := s.idx + 1 }) ∧
    (s.idx = 2 → step s = .next { s' with rx := rest, len := b, idx := 0, dstate := .body })

/-- R156: a byte in `D_BODY`: `LCS` first, then the frame data; the length checksum is tested at the last body byte, and
there decides between `E_LCS`, `D_DCS` and `D_POST`. -/
def Obligations.BodyTakesByte : Prop :=
  ∀ (s s' : State) (b : Byte) (rest : List RxEvent), BlockMoves s s' → s.busy = true → s.dstate = .body →
    s.rx = .byte b :: rest →
    (s.idx.toNat < s.len.toNat → s.idx = 0 → step s = .next { s' with rx := rest, lcs := b, idx := s.idx + 1 }) ∧
    (s.idx.toNat < s.len.toNat → s.idx ≠ 0 →
      step s = .next { s' with rx := rest, fd := s.fd.set (s.idx.toNat - 1) b, idx := s.idx + 1 }) ∧
    (s.idx.toNat = s.len.toNat → s.idx = 0 → s.len + b = 0 →
      step s = .next { s' with rx := rest, lcs := b, dstate := .post }) ∧
    (s.idx.toNat = s.len.toNat → s.idx ≠ 0 → s.len + s.lcs = 0 →
      step s = .next { s' with rx := rest, fd := s.fd.set (s.idx.toNat - 1) b, dstate := .dcs }) ∧
    (s.idx.toNat = s.len.toNat → s.len + (if s.idx = 0 then b else s.lcs) ≠ 0 →
      ∃ t, step s = .next t ∧ Completed .err .lcs s t ∧ t.rx = rest ∧ t.tx = s.tx ∧ SameOperands s t ∧ SameResults s t ∧
        SameAgents s' t)

/-- R157: the byte in `D_DCS` is tested against the frame data. -/
def Obligations.ChecksumTakesByte : Prop :=
  ∀ (s s' : State) (b : Byte) (rest : List RxEvent), BlockMoves s s' → s.busy = true → s.dstate = .dcs →
    s.rx = .byte b :: rest →
    (sum8 (s.fd.take s.len.toNat) + b = 0 → step s = .next { s' with rx := rest, dstate := .post }) ∧
    (sum8 (s.fd.take s.len.toNat) + b ≠ 0 →
      ∃ t, step s = .next t ∧ Completed .err .dcs s t ∧ t.rx = rest ∧ t.tx = s.tx ∧ SameOperands s t ∧ SameResults s t ∧
        SameAgents s' t)

/-! ### The procedures -/

/-- R140: the events one decode run consumes, outcome by outcome, where `noise` is what the scan discards: `k + 6` for
`ACK` (`LEN = 0`), `k + 7 + LEN` for `DATA`, `E_DIRECTION` and `E_FRAMELEN`, `k + 6 + LEN` for `E_DCS` (`LEN > 0`), and so on;
for `E_RX` everything up to and including the `Err` event. -/
def Obligations.DecodeConsumesFrame : Prop :=
  ∀ (p : Config.Params) (evs rest : List RxEvent) (e : RunEnd), decodeRun p evs = .ended e rest →
    (e = .err .rx ∧ ∃ taken : List Byte, evs = taken.map .byte ++ .err :: rest) ∨
    (e ≠ .err .rx ∧ ∃ (noise : List Byte) (s1 s2 len : Byte) (taken : List Byte), (∀ b ∈ noise, b ≠ 0) ∧
      (e = .ack → len = 0) ∧ (e = .err .dcs → len ≠ 0) ∧
      evs = noise.map .byte ++ (.byte 0 :: .byte s1 :: .byte s2 :: .byte len :: (taken.map .byte ++ rest)) ∧
      4 + taken.length =
        match e with
        | .ack => 6
        | .data _ => 7 + len.toNat
        | .err .lcs => 5 + len.toNat
        | .err .dcs => 6 + len.toNat
        | .err .postamble => if len = 0 then 6 else 7 + len.toNat
        | .err _ => 7 + len.toNat)

/-- R160, R125: `DECODE` as the byte-serial machine agrees with the procedure: from a started `DECODE`, with the first
step and one step for each event, it consumes the same events, ends with the same outcome, writes the same values, and
hangs on the same sequences, the source being silent after them. (An endless source: `DecoderRefinesOnEndlessStream`.) -/
def Obligations.DecoderRefinesProcedure : Prop :=
  ∀ s : State, s.agenda = [] → s.busy = true → s.dstate = .idle → s.xstate = .idle → s.op = 2 → Memory.wf s = true →
    match decodeRun s.params s.rx with
    | .ended e rest =>
      ∃ t, Host.Core.run core (1 + (s.rx.length - rest.length)) s = .next t ∧ t.rx = rest ∧ t.tx = s.tx ∧
        t.source = s.source ∧ SameOperands s t ∧
        match e with
        | .ack => Completed .ack .none s t ∧ SameResults s t
        | .data r => Completed .data .none s t ∧ Delivered r t
        | .err c => Completed .err c s t ∧ SameResults s t
    | .hang =>
      s.source = .silent → ∀ k, ∃ t, Host.Core.run core (1 + s.rx.length + k) s = .next t ∧ t.busy = true ∧ t.rx = [] ∧ t.tx = s.tx ∧
        SameResults s t

/-- R175, R179 to R184: `SENDWAIT` whose frame write is answered `Ok` writes the frame and then agrees with the loop of
the procedure: the same events consumed, the same outcome, the result registers holding the last data frame decoded,
skipped or matching, and unchanged if there was none; it hangs on the same sequences, the source being silent after
them. (An endless source: `SendwaitRefinesOnEndlessStream`.) -/
def Obligations.SendwaitRefinesProcedure : Prop :=
  ∀ (s : State) (ans : List TxEvent), s.agenda = [] → s.busy = true → s.dstate = .idle → s.xstate = .idle → s.op = 3 →
    s.params.hasDemux = true → s.cPlen.toNat ≤ 253 → s.txAns = .answer .ok :: ans → Memory.wf s = true →
    match waitPhase s.params s.cCmd s.rx with
    | .ended e slot rest =>
      ∃ t, Host.Core.run core (1 + (s.rx.length - rest.length)) s = .next t ∧ t.rx = rest ∧
        t.tx = s.tx ++ encodeFrame s.cCmd (s.cPay.take s.cPlen.toNat) ∧ t.source = s.source ∧
        SameOperands s t ∧ (slot = none → SameResults s t) ∧ (∀ r, slot = some r → Delivered r t) ∧
        match e with
        | .ack => False
        | .data r => Completed .data .none s t ∧ slot = some r ∧ r.cmd = s.cCmd
        | .err c => Completed .err c s t
    | .hang slot =>
      s.source = .silent → ∀ k, ∃ t, Host.Core.run core (1 + s.rx.length + k) s = .next t ∧ t.busy = true ∧ t.rx = [] ∧
        t.tx = s.tx ++ encodeFrame s.cCmd (s.cPay.take s.cPlen.toNat) ∧ (slot = none → SameResults s t) ∧
        (∀ r, slot = some r → Delivered r t)

/-- R143: the outcome of a `DECODE` and the events it consumes depend only on the RX events and the parameters: two
started `DECODE`s that agree on those go on alike, whatever else their registers hold. -/
def Obligations.DecodeHasNoMemory : Prop :=
  ∀ s s' : State, s.agenda = [] → s.busy = true → s.dstate = .idle → s.xstate = .idle → s.op = 2 →
    Memory.wf s = true → s'.agenda = [] → s'.busy = true → s'.dstate = .idle → s'.xstate = .idle → s'.op = 2 →
    Memory.wf s' = true → s'.params = s.params → s'.rx = s.rx → s'.source = s.source →
    ∀ k, ∃ t t', Host.Core.run core k s = .next t ∧ Host.Core.run core k s' = .next t' ∧ t'.busy = t.busy ∧
      t'.rx = t.rx ∧ t'.source = t.source ∧
      (t.busy = false → t'.rKind = t.rKind ∧ t'.rErr = t.rErr ∧
        (t.rKind = .data → t'.rCmd = t.rCmd ∧ t'.rStatus = t.rStatus ∧ t'.rLen = t.rLen ∧
          t'.rData.take t.rLen.toNat = t.rData.take t.rLen.toNat))

/-- R141, R142: the response round trip. `DECODE` on noise without 0x00 followed by `RESP(c, Q)` ends with `DATA`, the
command id, status and data being as the rule says, and exactly the noise and the frame are consumed. -/
def Obligations.ResponseRoundTrip : Prop :=
  ∀ (s : State) (noise : List Byte) (c : Byte) (q : List Byte) (more : List RxEvent),
    s.agenda = [] → s.busy = true → s.dstate = .idle → s.xstate = .idle → s.op = 2 → Memory.wf s = true →
    (∀ b ∈ noise, b ≠ 0) → q.length ≤ 253 →
    s.rx = (noise ++ frameBytes 0x00 0xFF 0xD5 (c + 1) q).map .byte ++ more →
    ∃ t, Host.Core.run core (1 + (noise.length + 9 + q.length)) s = .next t ∧ Completed .data .none s t ∧ t.rx = more ∧
      t.source = s.source ∧ t.tx = s.tx ∧ SameOperands s t ∧
      ((¬(c = 0x40 ∨ c = s.params.cmdCommThru) ∨ q = []) → Delivered ⟨c, s.params.statusSuccess, q⟩ t) ∧
      (∀ st q', (c = 0x40 ∨ c = s.params.cmdCommThru) → q = st :: q' →
        ((st = s.params.statusSuccess ∧ 14 < (if s.params.quirkBasis = .a then q.length else q.length - 1) →
            Delivered ⟨c, st, q'⟩ t) ∧
          (¬(st = s.params.statusSuccess ∧ 14 < (if s.params.quirkBasis = .a then q.length else q.length - 1)) →
            Delivered ⟨c, st, q⟩ t)))

/-- R160, R11: on an RX stream that never ends, too, `DECODE` as the byte-serial machine agrees with the procedure: if the
procedure ends on some beginning of the stream, the machine completes; and after any number of steps it is either still busy,
with nothing written, or it has completed as the procedure ends on some beginning of the stream, with exactly the events left
that the procedure leaves. So it hangs only where the procedure ends on no beginning. -/
def Obligations.DecoderRefinesOnEndlessStream : Prop :=
  ∀ (s : State) (k : Nat), s.agenda = [] → s.busy = true → s.dstate = .idle → s.xstate = .idle → s.op = 2 →
    Memory.wf s = true → s.source = .endless k →
    (∀ n e rest, decodeRun s.params (rxStream s n) = .ended e rest →
      ∃ j t, Host.Core.run core j s = .next t ∧ t.busy = false) ∧
    ∀ j, ∃ t, Host.Core.run core j s = .next t ∧ t.tx = s.tx ∧ SameOperands s t ∧
      ((t.busy = true ∧ SameResults s t) ∨
        ∃ n i e, decodeRun s.params (rxStream s (n + i)) = .ended e (rxStream t i) ∧ t.source = .endless (k + n) ∧
          match e with
          | .ack => Completed .ack .none s t ∧ SameResults s t
          | .data r => Completed .data .none s t ∧ Delivered r t
          | .err c => Completed .err c s t ∧ SameResults s t)

/-- R175, R178 to R184, R11: the same for `SENDWAIT` whose frame write is answered `Ok`. So it stays busy for ever
where the procedure ends on no beginning of the stream. -/
def Obligations.SendwaitRefinesOnEndlessStream : Prop :=
  ∀ (s : State) (ans : List TxEvent) (k : Nat), s.agenda = [] → s.busy = true → s.dstate = .idle → s.xstate = .idle →
    s.op = 3 → s.params.hasDemux = true → s.cPlen.toNat ≤ 253 → s.txAns = .answer .ok :: ans → Memory.wf s = true →
    s.source = .endless k →
    (∀ n e slot rest, waitPhase s.params s.cCmd (rxStream s n) = .ended e slot rest →
      ∃ j t, Host.Core.run core j s = .next t ∧ t.busy = false) ∧
    ∀ j, ∃ t, Host.Core.run core (1 + j) s = .next t ∧
      t.tx = s.tx ++ encodeFrame s.cCmd (s.cPay.take s.cPlen.toNat) ∧ SameOperands s t ∧
      (t.busy = true ∨
        ∃ n i e slot, waitPhase s.params s.cCmd (rxStream s (n + i)) = .ended e slot (rxStream t i) ∧
          t.source = .endless (k + n) ∧ (slot = none → SameResults s t) ∧ (∀ r, slot = some r → Delivered r t) ∧
          match e with
          | .ack => False
          | .data r => Completed .data .none s t ∧ slot = some r ∧ r.cmd = s.cCmd
          | .err c => Completed .err c s t)
end

