-- ==== Sys2Proof/Laws/State.lean ====
section
/-! SUPPORT. One lemma per field for each named update of the state: what every operation makes of every register. -/

namespace Sys2Proof.Machine

variable (s : State)

/-! ### `startStep` -/

@[simp] theorem startStep_params : (startStep s).params = s.params := rfl
@[simp] theorem startStep_op : (startStep s).op = s.op := rfl
@[simp] theorem startStep_cCmd : (startStep s).cCmd = s.cCmd := rfl
@[simp] theorem startStep_cPlen : (startStep s).cPlen = s.cPlen := rfl
@[simp] theorem startStep_cPay : (startStep s).cPay = s.cPay := rfl
@[simp] theorem startStep_busy : (startStep s).busy = true := rfl
@[simp] theorem startStep_done : (startStep s).done = false := rfl
@[simp] theorem startStep_rKind : (startStep s).rKind = .none := rfl
@[simp] theorem startStep_rErr : (startStep s).rErr = .none := rfl
@[simp] theorem startStep_rValid : (startStep s).rValid = s.rValid := rfl
@[simp] theorem startStep_rCmd : (startStep s).rCmd = s.rCmd := rfl
@[simp] theorem startStep_rStatus : (startStep s).rStatus = s.rStatus := rfl
@[simp] theorem startStep_rLen : (startStep s).rLen = s.rLen := rfl
@[simp] theorem startStep_rData : (startStep s).rData = s.rData := rfl
@[simp] theorem startStep_dstate : (startStep s).dstate = s.dstate := rfl
@[simp] theorem startStep_idx : (startStep s).idx = s.idx := rfl
@[simp] theorem startStep_len : (startStep s).len = s.len := rfl
@[simp] theorem startStep_lcs : (startStep s).lcs = s.lcs := rfl
@[simp] theorem startStep_fd : (startStep s).fd = s.fd := rfl
@[simp] theorem startStep_xstate : (startStep s).xstate = s.xstate := rfl
@[simp] theorem startStep_wCmd : (startStep s).wCmd = s.wCmd := rfl
@[simp] theorem startStep_frames : (startStep s).frames = s.frames := rfl
@[simp] theorem startStep_txb : (startStep s).txb = s.txb := rfl
@[simp] theorem startStep_rx : (startStep s).rx = s.rx := rfl
@[simp] theorem startStep_source : (startStep s).source = s.source := rfl
@[simp] theorem startStep_tx : (startStep s).tx = s.tx := rfl
@[simp] theorem startStep_txAns : (startStep s).txAns = s.txAns := rfl
@[simp] theorem startStep_agenda : (startStep s).agenda = s.agenda := rfl
@[simp] theorem startStep_hostRead : (startStep s).hostRead = s.hostRead := rfl
@[simp] theorem startStep_draws : (startStep s).draws = s.draws := rfl

/-! ### `complete` -/

@[simp] theorem complete_params (k : Kind) (e : ErrCode) : (complete k e s).params = s.params := rfl
@[simp] theorem complete_op (k : Kind) (e : ErrCode) : (complete k e s).op = s.op := rfl
@[simp] theorem complete_cCmd (k : Kind) (e : ErrCode) : (complete k e s).cCmd = s.cCmd := rfl
@[simp] theorem complete_cPlen (k : Kind) (e : ErrCode) : (complete k e s).cPlen = s.cPlen := rfl
@[simp] theorem complete_cPay (k : Kind) (e : ErrCode) : (complete k e s).cPay = s.cPay := rfl
@[simp] theorem complete_busy (k : Kind) (e : ErrCode) : (complete k e s).busy = false := rfl
@[simp] theorem complete_done (k : Kind) (e : ErrCode) : (complete k e s).done = true := rfl
@[simp] theorem complete_rKind (k : Kind) (e : ErrCode) : (complete k e s).rKind = k := rfl
@[simp] theorem complete_rErr (k : Kind) (e : ErrCode) : (complete k e s).rErr = e := rfl
@[simp] theorem complete_rValid (k : Kind) (e : ErrCode) : (complete k e s).rValid = s.rValid := rfl
@[simp] theorem complete_rCmd (k : Kind) (e : ErrCode) : (complete k e s).rCmd = s.rCmd := rfl
@[simp] theorem complete_rStatus (k : Kind) (e : ErrCode) : (complete k e s).rStatus = s.rStatus := rfl
@[simp] theorem complete_rLen (k : Kind) (e : ErrCode) : (complete k e s).rLen = s.rLen := rfl
@[simp] theorem complete_rData (k : Kind) (e : ErrCode) : (complete k e s).rData = s.rData := rfl
@[simp] theorem complete_dstate (k : Kind) (e : ErrCode) : (complete k e s).dstate = .idle := rfl
@[simp] theorem complete_idx (k : Kind) (e : ErrCode) : (complete k e s).idx = Config.freeIdx s.draws := rfl
@[simp] theorem complete_len (k : Kind) (e : ErrCode) : (complete k e s).len = Config.freeByte s.draws := rfl
@[simp] theorem complete_lcs (k : Kind) (e : ErrCode) : (complete k e s).lcs = Config.freeByte (s.draws + 1) := rfl
@[simp] theorem complete_fd (k : Kind) (e : ErrCode) : (complete k e s).fd = freeBytes (s.draws + 3) 255 := rfl
@[simp] theorem complete_xstate (k : Kind) (e : ErrCode) : (complete k e s).xstate = (if s.params.hasDemux then .idle else s.xstate) := rfl
@[simp] theorem complete_wCmd (k : Kind) (e : ErrCode) : (complete k e s).wCmd = (if s.params.hasDemux then Config.freeByte (s.draws + 2) else s.wCmd) := rfl
@[simp] theorem complete_frames (k : Kind) (e : ErrCode) : (complete k e s).frames = (if s.params.hasDemux then freeFrameCount s.params s.draws else s.frames) := rfl
@[simp] theorem complete_txb (k : Kind) (e : ErrCode) : (complete k e s).txb = freeBytes (s.draws + 258) 262 := rfl
@[simp] theorem complete_rx (k : Kind) (e : ErrCode) : (complete k e s).rx = s.rx := rfl
@[simp] theorem complete_source (k : Kind) (e : ErrCode) : (complete k e s).source = s.source := rfl
@[simp] theorem complete_tx (k : Kind) (e : ErrCode) : (complete k e s).tx = s.tx := rfl
@[simp] theorem complete_txAns (k : Kind) (e : ErrCode) : (complete k e s).txAns = s.txAns := rfl
@[simp] theorem complete_agenda (k : Kind) (e : ErrCode) : (complete k e s).agenda = s.agenda := rfl
@[simp] theorem complete_hostRead (k : Kind) (e : ErrCode) : (complete k e s).hostRead = s.hostRead := rfl
@[simp] theorem complete_draws (k : Kind) (e : ErrCode) : (complete k e s).draws = s.draws + 520 := rfl

/-! ### `resetInput` -/

@[simp] theorem resetInput_params : (resetInput s).params = s.params := rfl
@[simp] theorem resetInput_op : (resetInput s).op = 0 := rfl
@[simp] theorem resetInput_cCmd : (resetInput s).cCmd = 0x00 := rfl
@[simp] theorem resetInput_cPlen : (resetInput s).cPlen = 0 := rfl
@[simp] theorem resetInput_cPay : (resetInput s).cPay = freeBytes (s.draws + 520) 253 := rfl
@[simp] theorem resetInput_busy : (resetInput s).busy = false := rfl
@[simp] theorem resetInput_done : (resetInput s).done = false := rfl
@[simp] theorem resetInput_rKind : (resetInput s).rKind = .none := rfl
@[simp] theorem resetInput_rErr : (resetInput s).rErr = .none := rfl
@[simp] theorem resetInput_rValid : (resetInput s).rValid = false := rfl
@[simp] theorem resetInput_rCmd : (resetInput s).rCmd = 0x00 := rfl
@[simp] theorem resetInput_rStatus : (resetInput s).rStatus = 0x00 := rfl
@[simp] theorem resetInput_rLen : (resetInput s).rLen = 0 := rfl
@[simp] theorem resetInput_rData : (resetInput s).rData = freeBytes (s.draws + 773) 255 := rfl
@[simp] theorem resetInput_dstate : (resetInput s).dstate = .idle := rfl
@[simp] theorem resetInput_idx : (resetInput s).idx = Config.freeIdx s.draws := rfl
@[simp] theorem resetInput_len : (resetInput s).len = Config.freeByte s.draws := rfl
@[simp] theorem resetInput_lcs : (resetInput s).lcs = Config.freeByte (s.draws + 1) := rfl
@[simp] theorem resetInput_fd : (resetInput s).fd = freeBytes (s.draws + 3) 255 := rfl
@[simp] theorem resetInput_xstate : (resetInput s).xstate = .idle := rfl
@[simp] theorem resetInput_wCmd : (resetInput s).wCmd = (if s.params.hasDemux then Config.freeByte (s.draws + 2) else s.wCmd) := rfl
@[simp] theorem resetInput_frames : (resetInput s).frames = 0 := rfl
@[simp] theorem resetInput_txb : (resetInput s).txb = freeBytes (s.draws + 258) 262 := rfl
@[simp] theorem resetInput_rx : (resetInput s).rx = s.rx := rfl
@[simp] theorem resetInput_source : (resetInput s).source = s.source := rfl
@[simp] theorem resetInput_tx : (resetInput s).tx = s.tx := rfl
@[simp] theorem resetInput_txAns : (resetInput s).txAns = s.txAns := rfl
@[simp] theorem resetInput_agenda : (resetInput s).agenda = s.agenda := rfl
@[simp] theorem resetInput_hostRead : (resetInput s).hostRead = s.hostRead := rfl
@[simp] theorem resetInput_draws : (resetInput s).draws = s.draws + 1028 := rfl

/-! ### `arrive` -/

@[simp] theorem arrive_params (e : RxEvent) : (arrive e s).params = s.params := rfl
@[simp] theorem arrive_op (e : RxEvent) : (arrive e s).op = s.op := rfl
@[simp] theorem arrive_cCmd (e : RxEvent) : (arrive e s).cCmd = s.cCmd := rfl
@[simp] theorem arrive_cPlen (e : RxEvent) : (arrive e s).cPlen = s.cPlen := rfl
@[simp] theorem arrive_cPay (e : RxEvent) : (arrive e s).cPay = s.cPay := rfl
@[simp] theorem arrive_busy (e : RxEvent) : (arrive e s).busy = s.busy := rfl
@[simp] theorem arrive_done (e : RxEvent) : (arrive e s).done = s.done := rfl
@[simp] theorem arrive_rKind (e : RxEvent) : (arrive e s).rKind = s.rKind := rfl
@[simp] theorem arrive_rErr (e : RxEvent) : (arrive e s).rErr = s.rErr := rfl
@[simp] theorem arrive_rValid (e : RxEvent) : (arrive e s).rValid = s.rValid := rfl
@[simp] theorem arrive_rCmd (e : RxEvent) : (arrive e s).rCmd = s.rCmd := rfl
@[simp] theorem arrive_rStatus (e : RxEvent) : (arrive e s).rStatus = s.rStatus := rfl
@[simp] theorem arrive_rLen (e : RxEvent) : (arrive e s).rLen = s.rLen := rfl
@[simp] theorem arrive_rData (e : RxEvent) : (arrive e s).rData = s.rData := rfl
@[simp] theorem arrive_dstate (e : RxEvent) : (arrive e s).dstate = s.dstate := rfl
@[simp] theorem arrive_idx (e : RxEvent) : (arrive e s).idx = s.idx := rfl
@[simp] theorem arrive_len (e : RxEvent) : (arrive e s).len = s.len := rfl
@[simp] theorem arrive_lcs (e : RxEvent) : (arrive e s).lcs = s.lcs := rfl
@[simp] theorem arrive_fd (e : RxEvent) : (arrive e s).fd = s.fd := rfl
@[simp] theorem arrive_xstate (e : RxEvent) : (arrive e s).xstate = s.xstate := rfl
@[simp] theorem arrive_wCmd (e : RxEvent) : (arrive e s).wCmd = s.wCmd := rfl
@[simp] theorem arrive_frames (e : RxEvent) : (arrive e s).frames = s.frames := rfl
@[simp] theorem arrive_txb (e : RxEvent) : (arrive e s).txb = s.txb := rfl
@[simp] theorem arrive_rx (e : RxEvent) : (arrive e s).rx = s.rx ++ [e] := rfl
@[simp] theorem arrive_source (e : RxEvent) : (arrive e s).source = s.source := rfl
@[simp] theorem arrive_tx (e : RxEvent) : (arrive e s).tx = s.tx := rfl
@[simp] theorem arrive_txAns (e : RxEvent) : (arrive e s).txAns = s.txAns := rfl
@[simp] theorem arrive_agenda (e : RxEvent) : (arrive e s).agenda = s.agenda := rfl
@[simp] theorem arrive_hostRead (e : RxEvent) : (arrive e s).hostRead = s.hostRead := rfl
@[simp] theorem arrive_draws (e : RxEvent) : (arrive e s).draws = s.draws := rfl

/-! ### `consume` -/

@[simp] theorem consume_params : (consume s).params = s.params := rfl
@[simp] theorem consume_op : (consume s).op = s.op := rfl
@[simp] theorem consume_cCmd : (consume s).cCmd = s.cCmd := rfl
@[simp] theorem consume_cPlen : (consume s).cPlen = s.cPlen := rfl
@[simp] theorem consume_cPay : (consume s).cPay = s.cPay := rfl
@[simp] theorem consume_busy : (consume s).busy = s.busy := rfl
@[simp] theorem consume_done : (consume s).done = s.done := rfl
@[simp] theorem consume_rKind : (consume s).rKind = s.rKind := rfl
@[simp] theorem consume_rErr : (consume s).rErr = s.rErr := rfl
@[simp] theorem consume_rValid : (consume s).rValid = s.rValid := rfl
@[simp] theorem consume_rCmd : (consume s).rCmd = s.rCmd := rfl
@[simp] theorem consume_rStatus : (consume s).rStatus = s.rStatus := rfl
@[simp] theorem consume_rLen : (consume s).rLen = s.rLen := rfl
@[simp] theorem consume_rData : (consume s).rData = s.rData := rfl
@[simp] theorem consume_dstate : (consume s).dstate = s.dstate := rfl
@[simp] theorem consume_idx : (consume s).idx = s.idx := rfl
@[simp] theorem consume_len : (consume s).len = s.len := rfl
@[simp] theorem consume_lcs : (consume s).lcs = s.lcs := rfl
@[simp] theorem consume_fd : (consume s).fd = s.fd := rfl
@[simp] theorem consume_xstate : (consume s).xstate = s.xstate := rfl
@[simp] theorem consume_wCmd : (consume s).wCmd = s.wCmd := rfl
@[simp] theorem consume_frames : (consume s).frames = s.frames := rfl
@[simp] theorem consume_txb : (consume s).txb = s.txb := rfl
@[simp] theorem consume_rx : (consume s).rx = s.rx.tail := rfl
@[simp] theorem consume_source : (consume s).source = s.source := rfl
@[simp] theorem consume_tx : (consume s).tx = s.tx := rfl
@[simp] theorem consume_txAns : (consume s).txAns = s.txAns := rfl
@[simp] theorem consume_agenda : (consume s).agenda = s.agenda := rfl
@[simp] theorem consume_hostRead : (consume s).hostRead = s.hostRead := rfl
@[simp] theorem consume_draws : (consume s).draws = s.draws := rfl

/-! ### `countRun` -/

@[simp] theorem countRun_params : (countRun s).params = s.params := rfl
@[simp] theorem countRun_op : (countRun s).op = s.op := rfl
@[simp] theorem countRun_cCmd : (countRun s).cCmd = s.cCmd := rfl
@[simp] theorem countRun_cPlen : (countRun s).cPlen = s.cPlen := rfl
@[simp] theorem countRun_cPay : (countRun s).cPay = s.cPay := rfl
@[simp] theorem countRun_busy : (countRun s).busy = s.busy := rfl
@[simp] theorem countRun_done : (countRun s).done = s.done := rfl
@[simp] theorem countRun_rKind : (countRun s).rKind = s.rKind := rfl
@[simp] theorem countRun_rErr : (countRun s).rErr = s.rErr := rfl
@[simp] theorem countRun_rValid : (countRun s).rValid = s.rValid := rfl
@[simp] theorem countRun_rCmd : (countRun s).rCmd = s.rCmd := rfl
@[simp] theorem countRun_rStatus : (countRun s).rStatus = s.rStatus := rfl
@[simp] theorem countRun_rLen : (countRun s).rLen = s.rLen := rfl
@[simp] theorem countRun_rData : (countRun s).rData = s.rData := rfl
@[simp] theorem countRun_dstate : (countRun s).dstate = s.dstate := rfl
@[simp] theorem countRun_idx : (countRun s).idx = s.idx := rfl
@[simp] theorem countRun_len : (countRun s).len = s.len := rfl
@[simp] theorem countRun_lcs : (countRun s).lcs = s.lcs := rfl
@[simp] theorem countRun_fd : (countRun s).fd = s.fd := rfl
@[simp] theorem countRun_xstate : (countRun s).xstate = s.xstate := rfl
@[simp] theorem countRun_wCmd : (countRun s).wCmd = s.wCmd := rfl
@[simp] theorem countRun_frames : (countRun s).frames = s.frames + 1 := rfl
@[simp] theorem countRun_txb : (countRun s).txb = s.txb := rfl
@[simp] theorem countRun_rx : (countRun s).rx = s.rx := rfl
@[simp] theorem countRun_source : (countRun s).source = s.source := rfl
@[simp] theorem countRun_tx : (countRun s).tx = s.tx := rfl
@[simp] theorem countRun_txAns : (countRun s).txAns = s.txAns := rfl
@[simp] theorem countRun_agenda : (countRun s).agenda = s.agenda := rfl
@[simp] theorem countRun_hostRead : (countRun s).hostRead = s.hostRead := rfl
@[simp] theorem countRun_draws : (countRun s).draws = s.draws := rfl

/-! ### `writeResult` -/

@[simp] theorem writeResult_params (r : Response) : (writeResult r s).params = s.params := rfl
@[simp] theorem writeResult_op (r : Response) : (writeResult r s).op = s.op := rfl
@[simp] theorem writeResult_cCmd (r : Response) : (writeResult r s).cCmd = s.cCmd := rfl
@[simp] theorem writeResult_cPlen (r : Response) : (writeResult r s).cPlen = s.cPlen := rfl
@[simp] theorem writeResult_cPay (r : Response) : (writeResult r s).cPay = s.cPay := rfl
@[simp] theorem writeResult_busy (r : Response) : (writeResult r s).busy = s.busy := rfl
@[simp] theorem writeResult_done (r : Response) : (writeResult r s).done = s.done := rfl
@[simp] theorem writeResult_rKind (r : Response) : (writeResult r s).rKind = s.rKind := rfl
@[simp] theorem writeResult_rErr (r : Response) : (writeResult r s).rErr = s.rErr := rfl
@[simp] theorem writeResult_rValid (r : Response) : (writeResult r s).rValid = true := rfl
@[simp] theorem writeResult_rCmd (r : Response) : (writeResult r s).rCmd = r.cmd := rfl
@[simp] theorem writeResult_rStatus (r : Response) : (writeResult r s).rStatus = r.status := rfl
@[simp] theorem writeResult_rLen (r : Response) : (writeResult r s).rLen = BitVec.ofNat 8 r.data.length := rfl
@[simp] theorem writeResult_rData (r : Response) : (writeResult r s).rData = r.data ++ freeBytes s.draws (255 - r.data.length) := rfl
@[simp] theorem writeResult_dstate (r : Response) : (writeResult r s).dstate = s.dstate := rfl
@[simp] theorem writeResult_idx (r : Response) : (writeResult r s).idx = s.idx := rfl
@[simp] theorem writeResult_len (r : Response) : (writeResult r s).len = s.len := rfl
@[simp] theorem writeResult_lcs (r : Response) : (writeResult r s).lcs = s.lcs := rfl
@[simp] theorem writeResult_fd (r : Response) : (writeResult r s).fd = s.fd := rfl
@[simp] theorem writeResult_xstate (r : Response) : (writeResult r s).xstate = s.xstate := rfl
@[simp] theorem writeResult_wCmd (r : Response) : (writeResult r s).wCmd = s.wCmd := rfl
@[simp] theorem writeResult_frames (r : Response) : (writeResult r s).frames = s.frames := rfl
@[simp] theorem writeResult_txb (r : Response) : (writeResult r s).txb = s.txb := rfl
@[simp] theorem writeResult_rx (r : Response) : (writeResult r s).rx = s.rx := rfl
@[simp] theorem writeResult_source (r : Response) : (writeResult r s).source = s.source := rfl
@[simp] theorem writeResult_tx (r : Response) : (writeResult r s).tx = s.tx := rfl
@[simp] theorem writeResult_txAns (r : Response) : (writeResult r s).txAns = s.txAns := rfl
@[simp] theorem writeResult_agenda (r : Response) : (writeResult r s).agenda = s.agenda := rfl
@[simp] theorem writeResult_hostRead (r : Response) : (writeResult r s).hostRead = s.hostRead := rfl
@[simp] theorem writeResult_draws (r : Response) : (writeResult r s).draws = s.draws + (255 - r.data.length) := rfl

/-! ### `latchCommand` -/

@[simp] theorem latchCommand_params : (latchCommand s).params = s.params := rfl
@[simp] theorem latchCommand_op : (latchCommand s).op = s.op := rfl
@[simp] theorem latchCommand_cCmd : (latchCommand s).cCmd = s.cCmd := rfl
@[simp] theorem latchCommand_cPlen : (latchCommand s).cPlen = s.cPlen := rfl
@[simp] theorem latchCommand_cPay : (latchCommand s).cPay = s.cPay := rfl
@[simp] theorem latchCommand_busy : (latchCommand s).busy = s.busy := rfl
@[simp] theorem latchCommand_done : (latchCommand s).done = s.done := rfl
@[simp] theorem latchCommand_rKind : (latchCommand s).rKind = s.rKind := rfl
@[simp] theorem latchCommand_rErr : (latchCommand s).rErr = s.rErr := rfl
@[simp] theorem latchCommand_rValid : (latchCommand s).rValid = s.rValid := rfl
@[simp] theorem latchCommand_rCmd : (latchCommand s).rCmd = s.rCmd := rfl
@[simp] theorem latchCommand_rStatus : (latchCommand s).rStatus = s.rStatus := rfl
@[simp] theorem latchCommand_rLen : (latchCommand s).rLen = s.rLen := rfl
@[simp] theorem latchCommand_rData : (latchCommand s).rData = s.rData := rfl
@[simp] theorem latchCommand_dstate : (latchCommand s).dstate = s.dstate := rfl
@[simp] theorem latchCommand_idx : (latchCommand s).idx = s.idx := rfl
@[simp] theorem latchCommand_len : (latchCommand s).len = s.len := rfl
@[simp] theorem latchCommand_lcs : (latchCommand s).lcs = s.lcs := rfl
@[simp] theorem latchCommand_fd : (latchCommand s).fd = s.fd := rfl
@[simp] theorem latchCommand_xstate : (latchCommand s).xstate = .send := rfl
@[simp] theorem latchCommand_wCmd : (latchCommand s).wCmd = s.cCmd := rfl
@[simp] theorem latchCommand_frames : (latchCommand s).frames = 0 := rfl
@[simp] theorem latchCommand_txb : (latchCommand s).txb = s.txb := rfl
@[simp] theorem latchCommand_rx : (latchCommand s).rx = s.rx := rfl
@[simp] theorem latchCommand_source : (latchCommand s).source = s.source := rfl
@[simp] theorem latchCommand_tx : (latchCommand s).tx = s.tx := rfl
@[simp] theorem latchCommand_txAns : (latchCommand s).txAns = s.txAns := rfl
@[simp] theorem latchCommand_agenda : (latchCommand s).agenda = s.agenda := rfl
@[simp] theorem latchCommand_hostRead : (latchCommand s).hostRead = s.hostRead := rfl
@[simp] theorem latchCommand_draws : (latchCommand s).draws = s.draws := rfl

/-! ### `txFrame` -/

@[simp] theorem txFrame_params (f : List Byte) : (txFrame f s).params = s.params := by cases h : s.txAns <;> simp [txFrame, dropTxEvent, h]
@[simp] theorem txFrame_op (f : List Byte) : (txFrame f s).op = s.op := by cases h : s.txAns <;> simp [txFrame, dropTxEvent, h]
@[simp] theorem txFrame_cCmd (f : List Byte) : (txFrame f s).cCmd = s.cCmd := by cases h : s.txAns <;> simp [txFrame, dropTxEvent, h]
@[simp] theorem txFrame_cPlen (f : List Byte) : (txFrame f s).cPlen = s.cPlen := by cases h : s.txAns <;> simp [txFrame, dropTxEvent, h]
@[simp] theorem txFrame_cPay (f : List Byte) : (txFrame f s).cPay = s.cPay := by cases h : s.txAns <;> simp [txFrame, dropTxEvent, h]
@[simp] theorem txFrame_busy (f : List Byte) : (txFrame f s).busy = s.busy := by cases h : s.txAns <;> simp [txFrame, dropTxEvent, h]
@[simp] theorem txFrame_done (f : List Byte) : (txFrame f s).done = s.done := by cases h : s.txAns <;> simp [txFrame, dropTxEvent, h]
@[simp] theorem txFrame_rKind (f : List Byte) : (txFrame f s).rKind = s.rKind := by cases h : s.txAns <;> simp [txFrame, dropTxEvent, h]
@[simp] theorem txFrame_rErr (f : List Byte) : (txFrame f s).rErr = s.rErr := by cases h : s.txAns <;> simp [txFrame, dropTxEvent, h]
@[simp] theorem txFrame_rValid (f : List Byte) : (txFrame f s).rValid = s.rValid := by cases h : s.txAns <;> simp [txFrame, dropTxEvent, h]
@[simp] theorem txFrame_rCmd (f : List Byte) : (txFrame f s).rCmd = s.rCmd := by cases h : s.txAns <;> simp [txFrame, dropTxEvent, h]
@[simp] theorem txFrame_rStatus (f : List Byte) : (txFrame f s).rStatus = s.rStatus := by cases h : s.txAns <;> simp [txFrame, dropTxEvent, h]
@[simp] theorem txFrame_rLen (f : List Byte) : (txFrame f s).rLen = s.rLen := by cases h : s.txAns <;> simp [txFrame, dropTxEvent, h]
@[simp] theorem txFrame_rData (f : List Byte) : (txFrame f s).rData = s.rData := by cases h : s.txAns <;> simp [txFrame, dropTxEvent, h]
@[simp] theorem txFrame_dstate (f : List Byte) : (txFrame f s).dstate = s.dstate := by cases h : s.txAns <;> simp [txFrame, dropTxEvent, h]
@[simp] theorem txFrame_idx (f : List Byte) : (txFrame f s).idx = s.idx := by cases h : s.txAns <;> simp [txFrame, dropTxEvent, h]
@[simp] theorem txFrame_len (f : List Byte) : (txFrame f s).len = s.len := by cases h : s.txAns <;> simp [txFrame, dropTxEvent, h]
@[simp] theorem txFrame_lcs (f : List Byte) : (txFrame f s).lcs = s.lcs := by cases h : s.txAns <;> simp [txFrame, dropTxEvent, h]
@[simp] theorem txFrame_fd (f : List Byte) : (txFrame f s).fd = s.fd := by cases h : s.txAns <;> simp [txFrame, dropTxEvent, h]
@[simp] theorem txFrame_xstate (f : List Byte) : (txFrame f s).xstate = s.xstate := by cases h : s.txAns <;> simp [txFrame, dropTxEvent, h]
@[simp] theorem txFrame_wCmd (f : List Byte) : (txFrame f s).wCmd = s.wCmd := by cases h : s.txAns <;> simp [txFrame, dropTxEvent, h]
@[simp] theorem txFrame_frames (f : List Byte) : (txFrame f s).frames = s.frames := by cases h : s.txAns <;> simp [txFrame, dropTxEvent, h]
@[simp] theorem txFrame_txb (f : List Byte) : (txFrame f s).txb = f ++ s.txb.drop f.length := rfl
@[simp] theorem txFrame_rx (f : List Byte) : (txFrame f s).rx = s.rx := by cases h : s.txAns <;> simp [txFrame, dropTxEvent, h]
@[simp] theorem txFrame_source (f : List Byte) : (txFrame f s).source = s.source := by cases h : s.txAns <;> simp [txFrame, dropTxEvent, h]
@[simp] theorem txFrame_tx (f : List Byte) : (txFrame f s).tx = s.tx ++ f.take (sentCount f.length (nextTxEvent s)) := rfl
@[simp] theorem txFrame_txAns (f : List Byte) : (txFrame f s).txAns = s.txAns.tail := by cases h : s.txAns <;> simp [txFrame, dropTxEvent, h]
@[simp] theorem txFrame_agenda (f : List Byte) : (txFrame f s).agenda = s.agenda := by cases h : s.txAns <;> simp [txFrame, dropTxEvent, h]
@[simp] theorem txFrame_hostRead (f : List Byte) : (txFrame f s).hostRead = s.hostRead := by cases h : s.txAns <;> simp [txFrame, dropTxEvent, h]

/-! ### `storeBody` -/

@[simp] theorem storeBody_params (b : Byte) : (storeBody b s).params = s.params := by unfold storeBody; split <;> rfl
@[simp] theorem storeBody_op (b : Byte) : (storeBody b s).op = s.op := by unfold storeBody; split <;> rfl
@[simp] theorem storeBody_cCmd (b : Byte) : (storeBody b s).cCmd = s.cCmd := by unfold storeBody; split <;> rfl
@[simp] theorem storeBody_cPlen (b : Byte) : (storeBody b s).cPlen = s.cPlen := by unfold storeBody; split <;> rfl
@[simp] theorem storeBody_cPay (b : Byte) : (storeBody b s).cPay = s.cPay := by unfold storeBody; split <;> rfl
@[simp] theorem storeBody_busy (b : Byte) : (storeBody b s).busy = s.busy := by unfold storeBody; split <;> rfl
@[simp] theorem storeBody_done (b : Byte) : (storeBody b s).done = s.done := by unfold storeBody; split <;> rfl
@[simp] theorem storeBody_rKind (b : Byte) : (storeBody b s).rKind = s.rKind := by unfold storeBody; split <;> rfl
@[simp] theorem storeBody_rErr (b : Byte) : (storeBody b s).rErr = s.rErr := by unfold storeBody; split <;> rfl
@[simp] theorem storeBody_rValid (b : Byte) : (storeBody b s).rValid = s.rValid := by unfold storeBody; split <;> rfl
@[simp] theorem storeBody_rCmd (b : Byte) : (storeBody b s).rCmd = s.rCmd := by unfold storeBody; split <;> rfl
@[simp] theorem storeBody_rStatus (b : Byte) : (storeBody b s).rStatus = s.rStatus := by unfold storeBody; split <;> rfl
@[simp] theorem storeBody_rLen (b : Byte) : (storeBody b s).rLen = s.rLen := by unfold storeBody; split <;> rfl
@[simp] theorem storeBody_rData (b : Byte) : (storeBody b s).rData = s.rData := by unfold storeBody; split <;> rfl
@[simp] theorem storeBody_dstate (b : Byte) : (storeBody b s).dstate = s.dstate := by unfold storeBody; split <;> rfl
@[simp] theorem storeBody_idx (b : Byte) : (storeBody b s).idx = s.idx := by unfold storeBody; split <;> rfl
@[simp] theorem storeBody_len (b : Byte) : (storeBody b s).len = s.len := by unfold storeBody; split <;> rfl
@[simp] theorem storeBody_lcs (b : Byte) : (storeBody b s).lcs = (if s.idx = 0 then b else s.lcs) := by unfold storeBody; split <;> rfl
@[simp] theorem storeBody_fd (b : Byte) : (storeBody b s).fd = (if s.idx = 0 then s.fd else s.fd.set (s.idx.toNat - 1) b) := by unfold storeBody; split <;> rfl
@[simp] theorem storeBody_xstate (b : Byte) : (storeBody b s).xstate = s.xstate := by unfold storeBody; split <;> rfl
@[simp] theorem storeBody_wCmd (b : Byte) : (storeBody b s).wCmd = s.wCmd := by unfold storeBody; split <;> rfl
@[simp] theorem storeBody_frames (b : Byte) : (storeBody b s).frames = s.frames := by unfold storeBody; split <;> rfl
@[simp] theorem storeBody_txb (b : Byte) : (storeBody b s).txb = s.txb := by unfold storeBody; split <;> rfl
@[simp] theorem storeBody_rx (b : Byte) : (storeBody b s).rx = s.rx := by unfold storeBody; split <;> rfl
@[simp] theorem storeBody_source (b : Byte) : (storeBody b s).source = s.source := by unfold storeBody; split <;> rfl
@[simp] theorem storeBody_tx (b : Byte) : (storeBody b s).tx = s.tx := by unfold storeBody; split <;> rfl
@[simp] theorem storeBody_txAns (b : Byte) : (storeBody b s).txAns = s.txAns := by unfold storeBody; split <;> rfl
@[simp] theorem storeBody_agenda (b : Byte) : (storeBody b s).agenda = s.agenda := by unfold storeBody; split <;> rfl
@[simp] theorem storeBody_hostRead (b : Byte) : (storeBody b s).hostRead = s.hostRead := by unfold storeBody; split <;> rfl
@[simp] theorem storeBody_draws (b : Byte) : (storeBody b s).draws = s.draws := by unfold storeBody; split <;> rfl

end Sys2Proof.Machine
end

