-- ==== Sys2Proof/Laws/Memory.lean ====
section
/-! SUPPORT. Every operation keeps the buffers' canonical form (`Memory.wf`), and so do reset and every host action. -/

namespace Sys2Proof.Machine

@[simp] theorem freeBytes_length (d n : Nat) : (freeBytes d n).length = n := by simp [freeBytes]

theorem memory_wf_iff (s : State) :
    Memory.wf s = true ↔
      s.cPay.length = 253 ∧ s.rData.length = 255 ∧ s.fd.length = 255 ∧ s.txb.length = 262 := by
  unfold Memory.wf
  exact decide_eq_true_iff

/-- The form depends on the four buffers' lengths only. -/
theorem memory_wf_of_lengths {s t : State} (h : Memory.wf s = true) (h1 : t.cPay.length = s.cPay.length)
    (h2 : t.rData.length = s.rData.length) (h3 : t.fd.length = s.fd.length) (h4 : t.txb.length = s.txb.length) :
    Memory.wf t = true := by
  rw [memory_wf_iff] at h ⊢
  omega

theorem reset_memory_wf : Memory.wf State.reset = true := by
  rw [memory_wf_iff]
  exact ⟨List.length_replicate, List.length_replicate, List.length_replicate, List.length_replicate⟩

theorem startStep_memory_wf {s : State} (h : Memory.wf s = true) : Memory.wf (startStep s) = true := h

theorem complete_memory_wf {s : State} (k : Kind) (e : ErrCode) (h : Memory.wf s = true) :
    Memory.wf (complete k e s) = true := by
  simp_all [memory_wf_iff]

theorem raise_memory_wf {s : State} (e : ErrCode) (h : Memory.wf s = true) : Memory.wf (raise e s) = true :=
  complete_memory_wf .err e h

theorem resetInput_memory_wf (s : State) : Memory.wf (resetInput s) = true := by
  simp [memory_wf_iff]

theorem arrive_memory_wf {s : State} (e : RxEvent) (h : Memory.wf s = true) : Memory.wf (arrive e s) = true := h

theorem consume_memory_wf {s : State} (h : Memory.wf s = true) : Memory.wf (consume s) = true := h

theorem countRun_memory_wf {s : State} (h : Memory.wf s = true) : Memory.wf (countRun s) = true := h

theorem latchCommand_memory_wf {s : State} (h : Memory.wf s = true) : Memory.wf (latchCommand s) = true := h

/-- Storing a body byte writes a byte in place. -/
theorem storeBody_memory_wf {s : State} (b : Byte) (h : Memory.wf s = true) : Memory.wf (storeBody b s) = true := by
  refine memory_wf_of_lengths h ?_ ?_ ?_ ?_ <;> simp
  split <;> simp

/-- A response of at most 255 bytes fills `R_DATA` to its capacity. -/
theorem writeResult_memory_wf {s : State} {r : Response} (hr : r.data.length ≤ 255) (h : Memory.wf s = true) :
    Memory.wf (writeResult r s) = true := by
  rw [memory_wf_iff] at h ⊢
  simp [h]
  omega

/-- A frame of at most 262 bytes fits `TXB`. -/
theorem txFrame_memory_wf {s : State} {f : List Byte} (hf : f.length ≤ 262) (h : Memory.wf s = true) :
    Memory.wf (txFrame f s) = true := by
  rw [memory_wf_iff] at h ⊢
  simp [h]
  omega

theorem nextRun_memory_wf {s : State} (h : Memory.wf s = true) : Memory.wf (nextRun s) = true := by
  unfold nextRun
  split
  · exact raise_memory_wf _ h
  · exact h

theorem endAck_memory_wf {s : State} (h : Memory.wf s = true) : Memory.wf (endAck s) = true := by
  unfold endAck
  split
  · exact nextRun_memory_wf h
  · exact complete_memory_wf _ _ h

theorem endData_memory_wf {s : State} {r : Response} (hr : r.data.length ≤ 255) (h : Memory.wf s = true) :
    Memory.wf (endData r s) = true := by
  have hw := writeResult_memory_wf hr h
  unfold endData
  split
  · split
    · exact complete_memory_wf _ _ hw
    · exact nextRun_memory_wf hw
  · exact complete_memory_wf _ _ hw

theorem writeFrame_memory_wf {s : State} (w : Bool) {f : List Byte} (hf : f.length ≤ 262) (h : Memory.wf s = true) :
    Memory.wf (writeFrame w f s) = true := by
  have ht := txFrame_memory_wf hf h
  unfold writeFrame
  split
  · split
    · exact nextRun_memory_wf ht
    · exact complete_memory_wf _ _ ht
  · exact raise_memory_wf _ ht
  · exact resetInput_memory_wf _

/-- The response data are a part of the frame data. -/
theorem extract_data_length (p : Config.Params) (b : Bool) (c : Byte) (fd : List Byte) :
    (extract p b c fd).data.length ≤ fd.length - 2 := by
  unfold extract
  split
  · split <;> simp
    omega
  · simp

theorem response_data_length (p : Config.Params) (fd : List Byte) : (response p fd).data.length ≤ fd.length - 2 :=
  extract_data_length ..

/-- Frame data never exceed 255 bytes. -/
theorem frameData_length_le (s : State) : (frameData s).length ≤ 255 := by
  have := s.len.isLt
  simp [frameData]
  omega

theorem rowOutcome_memory_wf {s : State} (r : ClassRow) (h : Memory.wf s = true) :
    Memory.wf (rowOutcome r s) = true := by
  cases r <;> simp only [rowOutcome, endErr]
  case row5 => exact endAck_memory_wf h
  case row8 =>
    have := response_data_length s.params (frameData s)
    have := frameData_length_le s
    exact endData_memory_wf (by omega) h
  all_goals exact raise_memory_wf _ h

theorem advance_memory_wf {s : State} (b : Byte) (h : Memory.wf s = true) : Memory.wf (advance b s) = true := by
  have hb := storeBody_memory_wf b h
  unfold advance
  repeat' split
  all_goals first | exact h | exact hb

theorem goOn_memory_wf {s : State} (h : Memory.wf s = true) : Memory.wf (goOn s) = true := by
  unfold goOn
  split
  · exact advance_memory_wf _ h
  · exact h

theorem applyRow_memory_wf {s : State} (r : ClassRow) (h : Memory.wf s = true) : Memory.wf (applyRow r s) = true := by
  unfold applyRow
  split
  · exact rowOutcome_memory_wf r h
  · exact h

theorem decoderStep_memory_wf {s : State} (h : Memory.wf s = true) : Memory.wf (decoderStep s) = true := by
  unfold decoderStep
  split
  · split
    · exact applyRow_memory_wf _ h
    · exact goOn_memory_wf h
  · exact h

theorem deliver_memory_wf (bs : List Byte) {s : State} (h : Memory.wf s = true) : Memory.wf (deliver bs s) = true := by
  induction bs generalizing s with
  | nil => exact h
  | cons b bs ih => exact ih (decoderStep_memory_wf h)

theorem encodeFrame_length (c : Byte) (p : List Byte) : (encodeFrame c p).length = 9 + p.length := by
  simp [encodeFrame, frameBytes]
  omega

theorem payload_length_le {s : State} (h : Memory.wf s = true) : (payload s).length ≤ 253 := by
  rw [memory_wf_iff] at h
  simp [payload]
  omega

theorem hostStep_memory_wf {s t : State} (a : HostAct) (h : Memory.wf s = true) (ht : hostStep a s = .next t) :
    Memory.wf t = true := by
  cases a <;> simp only [hostStep, operandWrite, Host.Outcome.next.injEq] at ht
  case start =>
    subst ht
    unfold hostStart
    split
    · exact h
    · split
      · exact raise_memory_wf _ h
      · exact h
  case read r =>
    subst ht
    unfold hostReadReg
    split <;> exact h
  case reset => exact ht ▸ resetInput_memory_wf s
  all_goals
    split at ht
    · cases ht
    · cases ht
      refine memory_wf_of_lengths h ?_ rfl rfl rfl
      simp

end Sys2Proof.Machine
end

