-- ==== Sys2Proof/Laws/Ops.lean ====
section
/-! SUPPORT. What each shared operation can do, said once. -/

namespace Sys2Proof.Machine

variable {s t : State}

@[simp] theorem raise_eq (e : ErrCode) (s : State) : raise e s = complete .err e s := rfl

@[simp] theorem endErr_eq (e : ErrCode) (s : State) : endErr e s = complete .err e s := rfl

/-- A completion writes what 10_state.md R25 says. -/
theorem complete_completed (k : Kind) (e : ErrCode) (s : State) : Completed k e s (complete k e s) where
  kind := rfl
  code := rfl
  notBusy := rfl
  done := rfl
  decoderIdle := rfl
  demuxIdle h := by simp [h]

theorem complete_sameOperands (k : Kind) (e : ErrCode) (s : State) : SameOperands s (complete k e s) :=
  ⟨rfl, rfl, rfl, rfl⟩

theorem complete_sameResults (k : Kind) (e : ErrCode) (s : State) : SameResults s (complete k e s) :=
  ⟨rfl, rfl, rfl, rfl, rfl⟩

theorem complete_sameStreams (k : Kind) (e : ErrCode) (s : State) : SameStreams s (complete k e s) :=
  ⟨rfl, rfl, rfl⟩

theorem complete_sameAgents (k : Kind) (e : ErrCode) (s : State) : SameAgents s (complete k e s) :=
  ⟨rfl, rfl, rfl, rfl⟩

/-- The loop's turn: a timeout at the bound, else the next preamble scan. -/
theorem nextRun_cases (s : State) :
    (s.params.maxFrames = some s.frames ∧ nextRun s = complete .err .timeout s) ∨
      (s.params.maxFrames ≠ some s.frames ∧ nextRun s = { s with dstate := .sync }) := by
  by_cases h : s.params.maxFrames = some s.frames <;> simp [nextRun, h]

/-- An acknowledgement ends `DECODE` and is skipped by `SENDWAIT`. -/
theorem endAck_cases (s : State) :
    (s.xstate = .wait ∧ endAck s = nextRun (countRun s)) ∨ (s.xstate ≠ .wait ∧ endAck s = complete .ack .none s) := by
  cases h : s.xstate <;> simp [endAck, h]

/-- A data frame ends `DECODE`; in `SENDWAIT` it ends the wait exactly when it matches. -/
theorem endData_cases (r : Response) (s : State) :
    (s.xstate = .wait ∧ r.cmd = s.wCmd ∧ endData r s = complete .data .none (countRun (writeResult r s))) ∨
      (s.xstate = .wait ∧ r.cmd ≠ s.wCmd ∧ endData r s = nextRun (countRun (writeResult r s))) ∨
        (s.xstate ≠ .wait ∧ endData r s = complete .data .none (writeResult r s)) := by
  by_cases hc : r.cmd = s.wCmd <;> cases h : s.xstate <;> simp [endData, h, hc]

/-- A frame write: answered `Ok`, answered `Fail`, or cut by reset. -/
theorem writeFrame_cases (w : Bool) (f : List Byte) (s : State) :
    (nextTxEvent s = .answer .ok ∧ w = true ∧
        writeFrame w f s = nextRun { txFrame f s with xstate := .wait }) ∨
      (nextTxEvent s = .answer .ok ∧ w = false ∧ writeFrame w f s = complete .none .none (txFrame f s)) ∨
        (∃ n, nextTxEvent s = .answer (.fail n) ∧ writeFrame w f s = complete .err .tx (txFrame f s)) ∨
          ∃ n, nextTxEvent s = .cut n ∧ writeFrame w f s = resetInput (txFrame f s) := by
  rcases h : nextTxEvent s with (_ | n) | n <;> cases w <;> simp [writeFrame, h]

/-- Only these three things end a frame write. -/
theorem writeFrame_ok_false (f : List Byte) (h : nextTxEvent s = .answer .ok) :
    writeFrame false f s = complete .none .none (txFrame f s) := by simp [writeFrame, h]

theorem writeFrame_ok_true (f : List Byte) (h : nextTxEvent s = .answer .ok) :
    writeFrame true f s = nextRun { txFrame f s with xstate := .wait } := by simp [writeFrame, h]

theorem writeFrame_fail (w : Bool) (f : List Byte) (n : Nat) (h : nextTxEvent s = .answer (.fail n)) :
    writeFrame w f s = complete .err .tx (txFrame f s) := by simp [writeFrame, h]

theorem writeFrame_cut (w : Bool) (f : List Byte) (n : Nat) (h : nextTxEvent s = .cut n) :
    writeFrame w f s = resetInput (txFrame f s) := by simp [writeFrame, h]

/-- The listed answers come first. -/
@[simp] theorem nextTxEvent_cons (e : TxEvent) (rest : List TxEvent) (h : s.txAns = e :: rest) : nextTxEvent s = e := by
  simp [nextTxEvent, h]

/-- A pending row needs a running operation, a decoder that is not idle, and an event that meets it. -/
theorem pendingRow_eq_some {r : ClassRow} (h : pendingRow s = some r) :
    s.busy = true ∧ s.dstate ≠ .idle ∧ ∃ e rest, s.rx = e :: rest ∧ verdict s e = some r := by
  unfold pendingRow requesting at h
  split at h
  · rename_i hq
    simp only [Bool.and_eq_true, decide_eq_true_eq] at hq
    refine ⟨hq.1, hq.2, ?_⟩
    split at h
    · cases h
    · exact ⟨_, _, ‹_›, h⟩
  · cases h

/-- A row that the next event meets has its outcome. -/
theorem applyRow_of_pending {r : ClassRow} (h : pendingRow s = some r) : applyRow r s = rowOutcome r (consume s) := by
  simp [applyRow, h]

/-- Going on consumes one byte, if one is there. -/
theorem goOn_byte (b : Byte) (rest : List RxEvent) (h : s.rx = .byte b :: rest) : goOn s = advance b (consume s) := by
  simp [goOn, h]

theorem goOn_nil (h : s.rx = []) : goOn s = s := by simp [goOn, h]

end Sys2Proof.Machine
end

