-- ==== Sys2Proof/Laws/PerInstr.lean ====
section
/-! SUPPORT. A law of every instruction: its encoding has at least one byte and at most the 262 bytes of the longest frame
(00_scope.md R7). -/

namespace Sys2Proof.Laws.EncodingSize

/-- The encoding of a well-formed instruction has 1 to 262 bytes, whatever `CMD_COMM_THRU` is. -/
def Statement (i : Instr) : Prop :=
  ∀ thru, wellFormed thru i = true → 1 ≤ (encode thru i).length ∧ (encode thru i).length ≤ Config.maxFrame

theorem frameBytes_length (s1 s2 t x : Byte) (q : List Byte) : (frameBytes s1 s2 t x q).length = 9 + q.length := by
  simp [frameBytes]
  omega

theorem nop : Statement .nop := fun _ _ => by simp [Sys2Proof.encode, Config.maxFrame]

theorem encode : Statement .encode := fun _ _ => by simp [Sys2Proof.encode, Config.maxFrame]

theorem decode : Statement .decode := fun _ _ => by simp [Sys2Proof.encode, Config.maxFrame]

theorem sendwait : Statement .sendwait := fun _ _ => by simp [Sys2Proof.encode, Config.maxFrame]

theorem frameOutData (c : Byte) (p : List Byte) : Statement (.frameOutData c p) := by
  intro thru h
  have h : p.length ≤ 253 := of_decide_eq_true h
  simp only [Sys2Proof.encode, encodeFrame, frameBytes_length, Config.maxFrame]
  omega

theorem frameInData (s1 s2 e : Byte) (q : List Byte) : Statement (.frameInData s1 s2 e q) := by
  intro thru h
  have h : q.length ≤ 253 := of_decide_eq_true h
  simp only [Sys2Proof.encode, frameBytes_length, Config.maxFrame]
  omega

theorem frameAck (s1 s2 : Byte) : Statement (.frameAck s1 s2) := fun _ _ => by simp [Sys2Proof.encode, Config.maxFrame, ackBytes]

theorem class1 : Statement .class1 := fun _ _ => by simp [Sys2Proof.encode, Config.maxFrame]

theorem class2 : Statement .class2 := fun _ _ => by simp [Sys2Proof.encode, Config.maxFrame]

theorem class3 : Statement .class3 := fun _ _ => by simp [Sys2Proof.encode, Config.maxFrame]

theorem class4 : Statement .class4 := fun _ _ => by simp [Sys2Proof.encode, Config.maxFrame]

theorem class5 : Statement .class5 := fun _ _ => by simp [Sys2Proof.encode, Config.maxFrame]

theorem class6 : Statement .class6 := fun _ _ => by simp [Sys2Proof.encode, Config.maxFrame]

theorem class7 : Statement .class7 := fun _ _ => by simp [Sys2Proof.encode, Config.maxFrame]

theorem class8 : Statement .class8 := fun _ _ => by simp [Sys2Proof.encode, Config.maxFrame]

theorem cmdDataExchange : Statement .cmdDataExchange := fun _ _ => by simp [Sys2Proof.encode, Config.maxFrame]

theorem cmdCommThru : Statement .cmdCommThru := fun _ _ => by simp [Sys2Proof.encode, Config.maxFrame]

theorem cmdOther (c : Byte) : Statement (.cmdOther c) := fun _ _ => by simp [Sys2Proof.encode, Config.maxFrame]

theorem kindNone : Statement .kindNone := fun _ _ => by simp [Sys2Proof.encode, Config.maxFrame]

theorem kindAck : Statement .kindAck := fun _ _ => by simp [Sys2Proof.encode, Config.maxFrame]

theorem kindData : Statement .kindData := fun _ _ => by simp [Sys2Proof.encode, Config.maxFrame]

theorem kindErr (e : ErrCode) : Statement (.kindErr e) := fun _ _ => by simp [Sys2Proof.encode, Config.maxFrame]

theorem errNone : Statement .errNone := fun _ _ => by simp [Sys2Proof.encode, Config.maxFrame]

theorem errTx : Statement .errTx := fun _ _ => by simp [Sys2Proof.encode, Config.maxFrame]

theorem errRx : Statement .errRx := fun _ _ => by simp [Sys2Proof.encode, Config.maxFrame]

theorem errLcs : Statement .errLcs := fun _ _ => by simp [Sys2Proof.encode, Config.maxFrame]

theorem errDcs : Statement .errDcs := fun _ _ => by simp [Sys2Proof.encode, Config.maxFrame]

theorem errPostamble : Statement .errPostamble := fun _ _ => by simp [Sys2Proof.encode, Config.maxFrame]

theorem errDirection : Statement .errDirection := fun _ _ => by simp [Sys2Proof.encode, Config.maxFrame]

theorem errFrameLen : Statement .errFrameLen := fun _ _ => by simp [Sys2Proof.encode, Config.maxFrame]

theorem errPayload : Statement .errPayload := fun _ _ => by simp [Sys2Proof.encode, Config.maxFrame]

theorem errTimeout : Statement .errTimeout := fun _ _ => by simp [Sys2Proof.encode, Config.maxFrame]

theorem errBadOp : Statement .errBadOp := fun _ _ => by simp [Sys2Proof.encode, Config.maxFrame]

end Sys2Proof.Laws.EncodingSize
end

