-- ==== Sys2Proof/Laws/Step.lean ====
section
/-! SUPPORT. What one step can do: the moves, and for a move of the block all of its cases. -/

namespace Sys2Proof.Machine

/-- The two agents of the step: another agent's move, or the block's, which runs its next instruction or none. -/
theorem step_cases {s t : State} (h : step s = .next t) :
    nextMove s = .other (.next t) ∨
      ∃ s', nextMove s = .block s' ∧
        ((∃ i, nextInstr s' = some i ∧ exec i s' = .next t) ∨ (nextInstr s' = none ∧ t = quietStep s')) := by
  unfold step at h
  split at h
  · exact .inl (by rw [‹nextMove s = _›, h])
  · rename_i s' hm
    refine .inr ⟨s', hm, ?_⟩
    split at h
    · exact .inl ⟨_, ‹_›, h⟩
    · exact .inr ⟨‹_›, by simpa using h.symm⟩

/-- The source answers exactly where the block requests a byte, none waits and the source is endless. -/
theorem sourceAnswer_eq_some {s t : State} :
    sourceAnswer s = some t ↔ s.rx = [] ∧ requesting s = true ∧
      ∃ k, s.source = .endless k ∧ t = { s with rx := [Config.freeRxEvent k], source := .endless (k + 1) } := by
  unfold sourceAnswer
  cases hr : s.rx with
  | cons e rest => simp
  | nil =>
    cases hs : s.source with
    | silent => simp
    | endless k => by_cases hq : requesting s = true <;> simp [hq, arrive, eq_comm]

theorem sourceAnswer_of_waiting {s : State} (h : s.rx ≠ []) : sourceAnswer s = none := by
  cases hr : s.rx <;> simp_all [sourceAnswer]

theorem sourceAnswer_of_not_requesting {s : State} (h : requesting s = false) : sourceAnswer s = none := by
  unfold sourceAnswer
  split <;> simp [h]

theorem sourceAnswer_of_silent {s : State} (h : s.source = .silent) : sourceAnswer s = none := by
  unfold sourceAnswer
  split <;> simp_all

/-- Where the source answers, that is the step, whatever lets the block move; the agenda stays. -/
theorem step_of_answer {s s' t : State} (hm : BlockMoves s s') (ha : sourceAnswer s = some t) : step s = .next t := by
  cases hm <;> simp_all [step, nextMove, blockMove]

/-- Where the source does not answer, the block's move is the step. -/
theorem nextMove_of_blockMoves {s s' : State} (hm : BlockMoves s s') (ha : sourceAnswer s = none) :
    nextMove s = .block s' := by
  cases hm <;> simp_all [nextMove, blockMove, State.withAgenda]

/-- The moves: the block's, the answer of the RX source to the block's request, the end of the host's wait, a host act, an
arrival. -/
theorem nextMove_cases (s : State) :
    (∃ s', BlockMoves s s' ∧ sourceAnswer s = none ∧ nextMove s = .block s') ∨
      (∃ s' t, BlockMoves s s' ∧ sourceAnswer s = some t ∧ nextMove s = .other (.next t)) ∨
        (∃ rest, s.agenda = .await :: rest ∧ s.busy = false ∧ nextMove s = .other (.next { s with agenda := rest })) ∨
          (∃ a rest, s.agenda = .host a :: rest ∧ nextMove s = .other (hostStep a { s with agenda := rest })) ∨
            ∃ e rest, s.agenda = .rx e :: rest ∧ nextMove s = .other (.next (arrive e { s with agenda := rest })) := by
  have key : ∀ s', BlockMoves s s' → nextMove s = blockMove s s' →
      (∃ s', BlockMoves s s' ∧ sourceAnswer s = none ∧ nextMove s = .block s') ∨
        ∃ s' t, BlockMoves s s' ∧ sourceAnswer s = some t ∧ nextMove s = .other (.next t) := by
    intro s' hm hn
    cases ha : sourceAnswer s with
    | none => exact .inl ⟨s', hm, rfl, by simp [hn, blockMove, ha]⟩
    | some t => exact .inr ⟨s', t, hm, rfl, by simp [hn, blockMove, ha]⟩
  cases ha : s.agenda with
  | nil =>
    rcases key s (.alone ha) (by simp [nextMove, ha]) with h | h
    · exact .inl h
    · exact .inr (.inl h)
  | cons m rest =>
    cases m with
    | fce =>
      rcases key _ (.turn rest ha) (by simp [nextMove, ha, State.withAgenda]) with h | h
      · exact .inl h
      · exact .inr (.inl h)
    | await =>
      cases hb : s.busy with
      | false => simp [nextMove, ha, hb]
      | true =>
        rcases key s (.awaited rest ha hb) (by simp [nextMove, ha, hb]) with h | h
        · exact .inl h
        · exact .inr (.inl h)
    | host a => simp [nextMove, ha]
    | rx e => simp [nextMove, ha]

/-- A class row's instruction applies that row. -/
@[simp] theorem exec_rowInstr (r : ClassRow) (s : State) : exec (rowInstr r) s = .next (applyRow r s) := by
  cases r <;> rfl

/-- All that a move of the block can do to the state `s`. -/
inductive BlockStep (s : State) : State → Prop where
  /-- nothing: no operation runs, or the decoder waits for an event -/
  | still : BlockStep s s
  | nop (hb : s.busy = true) (hd : s.dstate = .idle) (hx : s.xstate = .idle) (ho : decodeOp s.op = .nop) :
      BlockStep s (complete .none .none s)
  | overlong (hb : s.busy = true) (hd : s.dstate = .idle) (hx : s.xstate = .idle) (ho : decodeOp s.op = .encode)
      (hp : 253 < s.cPlen.toNat) : BlockStep s (complete .err .payload s)
  | encode (hb : s.busy = true) (hd : s.dstate = .idle) (hx : s.xstate = .idle) (ho : decodeOp s.op = .encode)
      (hp : s.cPlen.toNat ≤ 253) : BlockStep s (writeFrame false (encodeFrame s.cCmd (payload s)) s)
  | decode (hb : s.busy = true) (hd : s.dstate = .idle) (hx : s.xstate = .idle) (ho : decodeOp s.op = .decode) :
      BlockStep s { s with dstate := .sync }
  | sendwait (hb : s.busy = true) (hd : s.dstate = .idle) (hx : s.xstate = .idle) (ho : decodeOp s.op = .sendwait)
      (hq : s.params.hasDemux = true) : BlockStep s (sendPhase (latchCommand s))
  | badOp (hb : s.busy = true) (hd : s.dstate = .idle) (hx : s.xstate = .idle) (ho : decodeOp s.op = .sendwait)
      (hq : s.params.hasDemux = false) : BlockStep s (complete .err .badOp s)
  | sending (hb : s.busy = true) (hd : s.dstate = .idle) (hx : s.xstate = .send) : BlockStep s (sendPhase s)
  | turning (hb : s.busy = true) (hd : s.dstate = .idle) (hx : s.xstate = .wait) : BlockStep s (nextRun s)
  | row (r : ClassRow) (hr : pendingRow s = some r) : BlockStep s (rowOutcome r (consume s))
  | byte (b : Byte) (rest : List RxEvent) (hb : s.busy = true) (hd : s.dstate ≠ .idle) (hx : s.rx = .byte b :: rest)
      (hr : verdict s (.byte b) = none) : BlockStep s (advance b (consume s))

theorem goOn_blockStep {s : State} (hb : s.busy = true) (hd : s.dstate ≠ .idle) (hr : pendingRow s = none) :
    BlockStep s (goOn s) := by
  unfold goOn
  split
  · rename_i b rest hx
    refine .byte b rest hb hd hx ?_
    simpa [pendingRow, requesting, hb, hd, hx] using hr
  · exact .still

/-- Every move of the block is one of these cases. -/
theorem blockStep_of_move {s t : State}
    (h : (∃ i, nextInstr s = some i ∧ exec i s = .next t) ∨ (nextInstr s = none ∧ t = quietStep s)) :
    BlockStep s t := by
  by_cases hb : s.busy = true
  case neg =>
    rcases h with ⟨i, hi, -⟩ | ⟨-, rfl⟩
    · simp [nextInstr, hb] at hi
    · simp only [quietStep, hb]
      exact .still
  by_cases hd : s.dstate = .idle
  · cases hx : s.xstate with
    | idle =>
      rcases h with ⟨i, hi, he⟩ | ⟨hi, -⟩
      · simp only [nextInstr, hb, hd, hx, if_true, Option.some.injEq] at hi
        have hop : decodeOp s.op = .nop ∨ decodeOp s.op = .encode ∨ decodeOp s.op = .decode ∨
            decodeOp s.op = .sendwait := by
          unfold decodeOp
          split <;> simp
        rcases hop with ho | ho | ho | ho <;> rw [← hi, ho] at he
        · cases he
          exact .nop hb hd hx ho
        · by_cases hp : 253 < s.cPlen.toNat
          · simp only [exec, execEncode, Config.maxPayload, hp, if_true] at he
            cases he
            exact .overlong hb hd hx ho hp
          · simp only [exec, execEncode, Config.maxPayload, hp, if_false] at he
            cases he
            exact .encode hb hd hx ho (by omega)
        · cases he
          exact .decode hb hd hx ho
        · cases hq : s.params.hasDemux <;> simp [exec, execSendwait, hq] at he <;> cases he
          · exact .badOp hb hd hx ho hq
          · exact .sendwait hb hd hx ho hq
      · simp [nextInstr, hb, hd, hx] at hi
    | send =>
      rcases h with ⟨i, hi, -⟩ | ⟨-, rfl⟩
      · simp [nextInstr, hb, hd, hx] at hi
      · simp only [quietStep, hb, hd, hx, if_true]
        exact .sending hb hd hx
    | wait =>
      rcases h with ⟨i, hi, -⟩ | ⟨-, rfl⟩
      · simp [nextInstr, hb, hd, hx] at hi
      · simp only [quietStep, hb, hd, hx, if_true]
        exact .turning hb hd hx
  · have hn : nextInstr s = (pendingRow s).map rowInstr := by
      cases hds : s.dstate <;> simp_all [nextInstr]
    have hq : quietStep s = goOn s := by
      cases hds : s.dstate <;> simp_all [quietStep]
    rcases h with ⟨i, hi, he⟩ | ⟨hi, rfl⟩
    · rw [hn, Option.map_eq_some_iff] at hi
      obtain ⟨r, hr, rfl⟩ := hi
      rw [exec_rowInstr, applyRow_of_pending hr] at he
      cases he
      exact .row r hr
    · rw [hn, Option.map_eq_none_iff] at hi
      rw [hq]
      exact goOn_blockStep hb hd hi

end Sys2Proof.Machine
end

