-- ==== Sys2Proof/Laws/Stream.lean ====
section
/-! SUPPORT. A step looks at the next RX event only: events that wait behind it change nothing but the stream. So an event that
an endless source has still to give may as well wait already (20_memory.md R53, R54). -/

namespace Sys2Proof.Machine

/-- `s` with the events `l` waiting behind those of `s`, and the stream going on as `c` after them. -/
def State.withMore (s : State) (l : List RxEvent) (c : RxSource) : State := { s with rx := s.rx ++ l, source := c }

variable (s : State) (l : List RxEvent) (c : RxSource)

theorem complete_withMore (k : Kind) (e : ErrCode) : complete k e (s.withMore l c) = (complete k e s).withMore l c := by
  simp only [complete, forget, State.withMore]
  rfl

theorem nextRun_withMore : nextRun (s.withMore l c) = (nextRun s).withMore l c := by
  unfold nextRun
  by_cases h : s.params.maxFrames = some s.frames
  · rw [if_pos h, if_pos (show (s.withMore l c).params.maxFrames = some (s.withMore l c).frames from h)]
    rfl
  · rw [if_neg h, if_neg (show ¬(s.withMore l c).params.maxFrames = some (s.withMore l c).frames from h)]
    rfl

theorem txFrame_withMore (f : List Byte) : txFrame f (s.withMore l c) = (txFrame f s).withMore l c := by
  cases h : s.txAns <;> simp [txFrame, dropTxEvent, nextTxEvent, State.withMore, h]

theorem writeFrame_withMore (w : Bool) (f : List Byte) :
    writeFrame w f (s.withMore l c) = (writeFrame w f s).withMore l c := by
  have ht := txFrame_withMore s l c f
  have hn : nextTxEvent (s.withMore l c) = nextTxEvent s := rfl
  unfold writeFrame
  rw [ht, hn]
  split
  · split
    · exact nextRun_withMore { txFrame f s with xstate := .wait } l c
    · rfl
  · rfl
  · rfl

theorem sendPhase_withMore : sendPhase (s.withMore l c) = (sendPhase s).withMore l c := by
  unfold sendPhase
  by_cases h : Config.maxPayload < s.cPlen.toNat
  · rw [if_pos h, if_pos (show Config.maxPayload < (s.withMore l c).cPlen.toNat from h)]
    rfl
  · rw [if_neg h, if_neg (show ¬Config.maxPayload < (s.withMore l c).cPlen.toNat from h)]
    exact writeFrame_withMore s l c true _

theorem endAck_withMore : endAck (s.withMore l c) = (endAck s).withMore l c := by
  have hx : (s.withMore l c).xstate = s.xstate := rfl
  obtain ⟨h, he⟩ | ⟨h, he⟩ := endAck_cases s <;> rw [he]
  · simp only [endAck, hx, h]
    exact nextRun_withMore (countRun s) l c
  · exact ((endAck_cases (s.withMore l c)).resolve_left (fun g => h g.1)).2

theorem endData_withMore (r : Response) : endData r (s.withMore l c) = (endData r s).withMore l c := by
  have hx : (s.withMore l c).xstate = s.xstate := rfl
  have hw : (s.withMore l c).wCmd = s.wCmd := rfl
  obtain ⟨h, hc, he⟩ | ⟨h, hc, he⟩ | ⟨h, he⟩ := endData_cases r s <;> rw [he]
  · simp only [endData, hx, h, hw, if_pos hc]
    rfl
  · simp only [endData, hx, h, hw, if_neg hc]
    exact nextRun_withMore (countRun (writeResult r s)) l c
  · obtain ⟨g, -⟩ | ⟨g, -⟩ | ⟨-, g⟩ := endData_cases r (s.withMore l c)
    · exact absurd g h
    · exact absurd g h
    · exact g

theorem rowOutcome_withMore (r : ClassRow) : rowOutcome r (s.withMore l c) = (rowOutcome r s).withMore l c := by
  cases r
  case row5 => exact endAck_withMore s l c
  case row8 => exact endData_withMore s l c _
  all_goals rfl

theorem advance_withMore (b : Byte) : advance b (s.withMore l c) = (advance b s).withMore l c := by
  cases h : s.dstate <;> simp only [advance, storeBody, State.withMore, h] <;> repeat' split
  all_goals simp only [h]

theorem verdict_withMore (e : RxEvent) : verdict (s.withMore l c) e = verdict s e := by
  cases e <;> cases h : s.dstate <;>
    simp only [verdict, storeBody_lcs, State.withMore, h, classifyAtPost, frameData, fdByte] <;> rfl

variable {s}

theorem consume_withMore (h : s.rx ≠ []) : consume (s.withMore l c) = (consume s).withMore l c := by
  cases hr : s.rx with
  | nil => exact absurd hr h
  | cons e rest => simp [consume, State.withMore, hr]

theorem pendingRow_withMore (h : s.rx ≠ [] ∨ requesting s = false) : pendingRow (s.withMore l c) = pendingRow s := by
  unfold pendingRow
  rw [show requesting (s.withMore l c) = requesting s from rfl]
  by_cases hq : requesting s = true
  · cases hr : s.rx with
    | nil => simp_all
    | cons e rest => simp [State.withMore, hr, hq, ← verdict_withMore s l c e]
  · simp [hq]

theorem goOn_withMore (h : s.rx ≠ []) : goOn (s.withMore l c) = (goOn s).withMore l c := by
  have hc := consume_withMore l c h
  cases hr : s.rx with
  | nil => exact absurd hr h
  | cons e rest =>
    cases e with
    | err => simp [goOn, hr, State.withMore]
    | byte b =>
      rw [goOn_byte b rest hr, goOn_byte b (rest ++ l) (by simp [State.withMore, hr]), hc]
      exact advance_withMore (consume s) l c b

/-- A step of the block that does not wait for an event. -/
theorem step_withMore (ha : s.agenda = []) (h : s.rx ≠ [] ∨ requesting s = false) :
    ∃ t, step s = .next t ∧ step (s.withMore l c) = .next (t.withMore l c) := by
  have key : ∀ v : State, v.agenda = [] → (v.rx ≠ [] ∨ requesting v = false) →
      step v = match nextInstr v with
        | some i => exec i v
        | none => .next (quietStep v) := by
    intro v hv hr
    have hn := nextMove_of_blockMoves (.alone hv)
      (hr.elim sourceAnswer_of_waiting sourceAnswer_of_not_requesting)
    simp only [step, hn] <;> rfl
  rw [key s ha h, key (s.withMore l c) ha (h.imp (fun h => by simp [State.withMore, h]) id)]
  have hp := pendingRow_withMore l c h
  by_cases hb : s.busy = true
  swap
  · have e1 : nextInstr s = none := by simp [nextInstr, hb]
    have e2 : nextInstr (s.withMore l c) = none := by simp [nextInstr, State.withMore, hb]
    rw [e1, e2]
    exact ⟨_, rfl, by simp [quietStep, State.withMore, hb]⟩
  by_cases hd : s.dstate = .idle
  · cases hx : s.xstate with
    | idle =>
      have e1 : nextInstr s = some (decodeOp s.op) := by simp [nextInstr, hb, hd, hx]
      have e2 : nextInstr (s.withMore l c) = some (decodeOp s.op) := by simp [nextInstr, State.withMore, hb, hd, hx]
      rw [e1, e2]
      dsimp only
      unfold decodeOp
      split
      · exact ⟨_, rfl, rfl⟩
      · by_cases hl : Config.maxPayload < s.cPlen.toNat
        · exact ⟨raise .payload s, if_pos hl, if_pos hl⟩
        · refine ⟨_, if_neg hl, (if_neg hl).trans ?_⟩
          exact congrArg _ (writeFrame_withMore s l c false _)
      · exact ⟨_, rfl, rfl⟩
      · cases hq : s.params.hasDemux with
        | false =>
          have hn : ¬s.params.hasDemux = true := by simp [hq]
          exact ⟨raise .badOp s, if_neg hn, (if_neg hn).trans (congrArg _ (complete_withMore s l c .err .badOp))⟩
        | true =>
          exact ⟨sendPhase (latchCommand s), if_pos hq,
            (if_pos hq).trans (congrArg _ (sendPhase_withMore (latchCommand s) l c))⟩
    | send =>
      have e1 : nextInstr s = none := by simp [nextInstr, hb, hd, hx]
      have e2 : nextInstr (s.withMore l c) = none := by simp [nextInstr, State.withMore, hb, hd, hx]
      rw [e1, e2]
      refine ⟨_, rfl, ?_⟩
      have q1 : quietStep s = sendPhase s := by simp [quietStep, hb, hd, hx]
      have q2 : quietStep (s.withMore l c) = sendPhase (s.withMore l c) := by
        simp [quietStep, State.withMore, hb, hd, hx]
      dsimp only
      rw [q1, q2, sendPhase_withMore]
    | wait =>
      have e1 : nextInstr s = none := by simp [nextInstr, hb, hd, hx]
      have e2 : nextInstr (s.withMore l c) = none := by simp [nextInstr, State.withMore, hb, hd, hx]
      rw [e1, e2]
      refine ⟨_, rfl, ?_⟩
      have q1 : quietStep s = nextRun s := by simp [quietStep, hb, hd, hx]
      have q2 : quietStep (s.withMore l c) = nextRun (s.withMore l c) := by
        simp [quietStep, State.withMore, hb, hd, hx]
      dsimp only
      rw [q1, q2, nextRun_withMore]
  · have hw : s.rx ≠ [] := h.resolve_right (by simp [requesting, hb, hd])
    have hn : ∀ v : State, v.busy = true → v.dstate ≠ .idle → nextInstr v = (pendingRow v).map rowInstr := by
      intro v h1 h2
      cases hds : v.dstate <;> simp_all [nextInstr]
    have hq : ∀ v : State, v.busy = true → v.dstate ≠ .idle → quietStep v = goOn v := by
      intro v h1 h2
      cases hds : v.dstate <;> simp_all [quietStep]
    rw [hn s hb hd, hn (s.withMore l c) hb hd, hp]
    cases hr : pendingRow s with
    | none => exact ⟨_, rfl, by rw [hq s hb hd, hq (s.withMore l c) hb hd, goOn_withMore l c hw]; rfl⟩
    | some r =>
      refine ⟨_, exec_rowInstr r s, (exec_rowInstr r _).trans ?_⟩
      rw [applyRow_of_pending hr, applyRow_of_pending (hp.trans hr), consume_withMore l c hw, rowOutcome_withMore]

end Sys2Proof.Machine
end

