-- ==== Sys2Proof/Tests/Slice0.lean ====
section
/-! SUPPORT. Tests. Expected results are the spec's: the words of spec/opcode_table.json and 30_encoding.md, and the vectors
V1 to V94 of spec/95_test_vectors.md (named in each test's comment). Last stand the witnesses: for every statement with
hypotheses, concrete states and operands that meet them, clause by clause. -/

namespace Sys2Proof.Tests

open Sys2Proof Sys2Proof.Machine

/-! ### WellFormed refuses ill-formed terms, one for each check -/

theorem test_wf_long_outbound : wellFormed 0x42 (.frameOutData 0x40 (List.replicate 254 0)) = false := by
  decide +kernel
theorem test_wf_longest_outbound : wellFormed 0x42 (.frameOutData 0x40 (List.replicate 253 0)) = true := by
  decide +kernel
theorem test_wf_long_inbound : wellFormed 0x42 (.frameInData 0x00 0xFF 0x41 (List.replicate 254 0)) = false := by
  decide +kernel
theorem test_wf_comm_thru_is_exchange : wellFormed 0x40 .cmdCommThru = false := by decide
theorem test_wf_other_is_exchange : wellFormed 0x42 (.cmdOther 0x40) = false := by decide
theorem test_wf_other_is_comm_thru : wellFormed 0x42 (.cmdOther 0x42) = false := by decide
theorem test_wf_err_without_code : wellFormed 0x42 (.kindErr .none) = false := by decide

/-! ### Every constructor's word decodes to it -/

-- R101: OP = 00, 01, 10, 11
theorem test_word_nop : decode 0x42 .op [0b00] = .ok (.nop, []) := by decide
theorem test_word_encode : decode 0x42 .op [0b01] = .ok (.encode, []) := by decide
theorem test_word_decode : decode 0x42 .op [0b10] = .ok (.decode, []) := by decide
theorem test_word_sendwait : decode 0x42 .op [0b11] = .ok (.sendwait, []) := by decide
theorem test_word_op_range : decode 0x42 .op [0x04] = .error .opRange := by decide
-- V3; one byte of the next frame follows
theorem test_word_frame_out : decode 0x42 .frame [0x00, 0x00, 0xFF, 0x03, 0xFD, 0xD4, 0x14, 0x01, 0x17, 0x00, 0x55] =
    .ok (.frameOutData 0x14 [0x01], [0x55]) := by decide
-- V15
theorem test_word_frame_in : decode 0x42 .frame
    [0x00, 0x00, 0xFF, 0x06, 0xFA, 0xD5, 0x03, 0x32, 0x01, 0x06, 0x07, 0xE8, 0x00] =
    .ok (.frameInData 0x00 0xFF 0x03 [0x32, 0x01, 0x06, 0x07], []) := by decide
-- V10, and start codes that the decoder does not test (V30, R99)
theorem test_word_ack : decode 0x42 .frame [0x00, 0x12, 0x34, 0x00, 0x00, 0x00] = .ok (.frameAck 0x12 0x34, []) := by decide
-- V24, V25, V27, V31, V29: frames that are no row
theorem test_word_bad_lcs : decode 0x42 .frame [0x00, 0x00, 0xFF, 0x03, 0xFC, 0xD5, 0x41, 0x00, 0xEA, 0x00] =
    .error .lengthChecksum := by decide
theorem test_word_bad_dcs : decode 0x42 .frame [0x00, 0x00, 0xFF, 0x03, 0xFD, 0xD5, 0x41, 0x00, 0xEB, 0x00] =
    .error .dataChecksum := by decide
theorem test_word_bad_post : decode 0x42 .frame [0x00, 0x00, 0xFF, 0x03, 0xFD, 0xD5, 0x41, 0x00, 0xEA, 0x01] =
    .error .postamble := by decide
theorem test_word_bad_direction : decode 0x42 .frame [0x00, 0x00, 0xFF, 0x01, 0xFF, 0x7F, 0x81, 0x00] =
    .error .direction := by decide
theorem test_word_bad_length : decode 0x42 .frame [0x00, 0x00, 0xFF, 0x01, 0xFF, 0xD5, 0x2B, 0x00] =
    .error .frameLength := by decide
-- R94: rows 1 to 8
theorem test_word_class1 : decode 0x42 .cls [1] = .ok (.class1, []) := by decide
theorem test_word_class2 : decode 0x42 .cls [2] = .ok (.class2, []) := by decide
theorem test_word_class3 : decode 0x42 .cls [3] = .ok (.class3, []) := by decide
theorem test_word_class4 : decode 0x42 .cls [4] = .ok (.class4, []) := by decide
theorem test_word_class5 : decode 0x42 .cls [5] = .ok (.class5, []) := by decide
theorem test_word_class6 : decode 0x42 .cls [6] = .ok (.class6, []) := by decide
theorem test_word_class7 : decode 0x42 .cls [7] = .ok (.class7, []) := by decide
theorem test_word_class8 : decode 0x42 .cls [8] = .ok (.class8, []) := by decide
theorem test_word_class_range : decode 0x42 .cls [9] = .error .classRow := by decide
-- R90, R92
theorem test_word_cmd_exchange : decode 0x42 .cmdid [0x40] = .ok (.cmdDataExchange, []) := by decide
theorem test_word_cmd_comm_thru : decode 0x42 .cmdid [0x42] = .ok (.cmdCommThru, []) := by decide
theorem test_word_cmd_other : decode 0x42 .cmdid [0x4A] = .ok (.cmdOther 0x4A, []) := by decide
-- R27
theorem test_word_kind_none : decode 0x42 .kind [0] = .ok (.kindNone, []) := by decide
theorem test_word_kind_ack : decode 0x42 .kind [1] = .ok (.kindAck, []) := by decide
theorem test_word_kind_data : decode 0x42 .kind [2] = .ok (.kindData, []) := by decide
theorem test_word_kind_err : decode 0x42 .kind [3, 9] = .ok (.kindErr .timeout, []) := by decide
-- R210
theorem test_word_err_none : decode 0x42 .error [0] = .ok (.errNone, []) := by decide
theorem test_word_err_tx : decode 0x42 .error [1] = .ok (.errTx, []) := by decide
theorem test_word_err_rx : decode 0x42 .error [2] = .ok (.errRx, []) := by decide
theorem test_word_err_lcs : decode 0x42 .error [3] = .ok (.errLcs, []) := by decide
theorem test_word_err_dcs : decode 0x42 .error [4] = .ok (.errDcs, []) := by decide
theorem test_word_err_postamble : decode 0x42 .error [5] = .ok (.errPostamble, []) := by decide
theorem test_word_err_direction : decode 0x42 .error [6] = .ok (.errDirection, []) := by decide
theorem test_word_err_framelen : decode 0x42 .error [7] = .ok (.errFrameLen, []) := by decide
theorem test_word_err_payload : decode 0x42 .error [8] = .ok (.errPayload, []) := by decide
theorem test_word_err_timeout : decode 0x42 .error [9] = .ok (.errTimeout, []) := by decide
theorem test_word_err_badop : decode 0x42 .error [10] = .ok (.errBadOp, []) := by decide
theorem test_word_err_range : decode 0x42 .error [11] = .error .errorRange := by decide

/-! ### The table's words -/

theorem test_table_sendwait : decodeTableWord 8 0b11 = some .sendwait := by decide
theorem test_table_cmd : decodeTableWord 8 0x40 = some .cmdDataExchange := by decide
-- R83: 00 00 FF 00 00 00, the first byte in bits 7 to 0
theorem test_table_ack : decodeTableWord 48 0xFF0000 = some (.frameAck 0x00 0xFF) := by decide +kernel
-- the bytes of V2, the first in bits 7 to 0
theorem test_table_frame_out : decodeTableWord 72 0x002A02D4FE02FF0000 = some (.frameOutData 0x02 []) := by decide +kernel

/-! ### Encoding -/

-- V1 (S1 corrected), V2, V5, V7, V9a
theorem test_encode_v1 : encodeFrame 0x40 [0x01, 0x20, 0x00] =
    [0x00, 0x00, 0xFF, 0x05, 0xFB, 0xD4, 0x40, 0x01, 0x20, 0x00, 0xCB, 0x00] := by decide
theorem test_encode_v5 : encodeFrame 0x00 [] = [0x00, 0x00, 0xFF, 0x02, 0xFE, 0xD4, 0x00, 0x2C, 0x00] := by decide
theorem test_encode_v7 : encodeFrame 0x2C [] = [0x00, 0x00, 0xFF, 0x02, 0xFE, 0xD4, 0x2C, 0x00, 0x00] := by decide
theorem test_encode_v9a : encodeFrame 0xFF [0xFF] =
    [0x00, 0x00, 0xFF, 0x03, 0xFD, 0xD4, 0xFF, 0xFF, 0x2E, 0x00] := by decide
-- V6, both ends of the largest frame
theorem test_encode_v6 : (encodeFrame 0x40 (List.replicate 253 0xFF)).take 8 =
    [0x00, 0x00, 0xFF, 0xFF, 0x01, 0xD4, 0x40, 0xFF] := by decide +kernel
theorem test_encode_v6_end : (encodeFrame 0x40 (List.replicate 253 0xFF)).drop 259 = [0xFF, 0xE9, 0x00] := by
  decide +kernel

/-! ### Small states -/

def bytes (bs : List Byte) : List RxEvent := bs.map .byte

/-- The operation `op` just started, with RX events `rx`. -/
def started (op : BitVec 2) (rx : List RxEvent) : State := { startStep State.reset with op := op, rx := rx }

/-- A `DECODE` run in decoder state `d`. -/
def decoding (d : DState) (rx : List RxEvent) : State := { started 2 rx with dstate := d }

/-- An inner run of a `SENDWAIT` that waits for command id 0x40. -/
def waiting (d : DState) (rx : List RxEvent) : State := { started 3 rx with dstate := d, xstate := .wait, wCmd := 0x40 }

/-- The same with `MAX_FRAMES = 1`. -/
def bounded (d : DState) (rx : List RxEvent) : State :=
  { waiting d rx with params := { Config.defaults with maxFrames := some 1 } }

/-- The same machine without the demultiplexer. -/
def plain (s : State) : State := { s with params := { Config.defaults with hasDemux := false } }

/-- The frame data `fd` in the decoder's registers. -/
def holding (fd : List Byte) (s : State) : State :=
  { s with
    len := BitVec.ofNat 8 fd.length
    lcs := lcsOf (BitVec.ofNat 8 fd.length)
    fd := fd ++ List.replicate (255 - fd.length) 0 }

/-- The host's operands. -/
def operands (c : Byte) (p : List Byte) (s : State) : State :=
  { s with cCmd := c, cPlen := BitVec.ofNat 8 p.length, cPay := p ++ List.replicate (253 - p.length) 0 }

def got (o : Host.Outcome State Fault Refusal) : Option State :=
  match o with
  | .next t => some t
  | _ => none

/-- `R_KIND`, `R_ERR`, `R_VALID`, `BUSY`, `DONE`. -/
def outcome (o : Host.Outcome State Fault Refusal) : Option (Kind × ErrCode × Bool × Bool × Bool) :=
  (got o).map fun t => (t.rKind, t.rErr, t.rValid, t.busy, t.done)

/-- `R_CMD`, `R_STATUS`, `R_LEN` and the first `n` bytes of `R_DATA`. -/
def result (n : Nat) (o : Host.Outcome State Fault Refusal) : Option (Byte × Byte × Byte × List Byte) :=
  (got o).map fun t => (t.rCmd, t.rStatus, t.rLen, t.rData.take n)

/-! ### Decode runs -/

-- V12, V14, V34: consumed whole; V22: noise
theorem test_run_v12 : decodeRun Config.defaults (bytes [0x00, 0x00, 0xFF, 0x03, 0xFD, 0xD5, 0x41, 0x00, 0xEA, 0x00]) =
    .ended (.data ⟨0x40, 0x00, [0x00]⟩) [] := by decide +kernel
theorem test_run_v14 : decodeRun Config.defaults (bytes [0x00, 0x00, 0xFF, 0x02, 0xFE, 0xD5, 0x41, 0xEA, 0x00]) =
    .ended (.data ⟨0x40, 0x00, []⟩) [] := by decide +kernel
theorem test_run_v34 : decodeRun Config.defaults (bytes [0x00, 0x00, 0xFF, 0x02, 0xFE, 0xD5, 0x00, 0x2B, 0x00]) =
    .ended (.data ⟨0xFF, 0x00, []⟩) [] := by decide +kernel
theorem test_run_v22 : decodeRun Config.defaults
    (bytes [0x55, 0xAA, 0xFF, 0x00, 0x00, 0xFF, 0x03, 0xFD, 0xD5, 0x41, 0x00, 0xEA, 0x00]) =
    .ended (.data ⟨0x40, 0x00, [0x00]⟩) [] := by decide +kernel
-- V23: a noise byte 0x00 is the preamble, and the run hangs
theorem test_run_v23 : decodeRun Config.defaults
    (bytes [0x55, 0x00, 0x00, 0x00, 0xFF, 0x03, 0xFD, 0xD5, 0x41, 0x00, 0xEA, 0x00]) = .hang := by decide +kernel
-- V24, V25, V26, V31, V33b, V35: the first failing test, and what is left
theorem test_run_v24 : decodeRun Config.defaults (bytes [0x00, 0x00, 0xFF, 0x03, 0xFC, 0xD5, 0x41, 0x00, 0xEA, 0x00]) =
    .ended (.err .lcs) (bytes [0xEA, 0x00]) := by decide +kernel
theorem test_run_v25 : decodeRun Config.defaults (bytes [0x00, 0x00, 0xFF, 0x03, 0xFD, 0xD5, 0x41, 0x00, 0xEB, 0x00]) =
    .ended (.err .dcs) (bytes [0x00]) := by decide +kernel
theorem test_run_v26 : decodeRun Config.defaults (bytes [0x00, 0x00, 0xFF, 0x00, 0xFF, 0x00]) =
    .ended (.err .lcs) (bytes [0x00]) := by decide +kernel
theorem test_run_v31 : decodeRun Config.defaults (bytes [0x00, 0x00, 0xFF, 0x01, 0xFF, 0x7F, 0x81, 0x00]) =
    .ended (.err .direction) [] := by decide +kernel
theorem test_run_v33b : decodeRun Config.defaults (bytes [0x00, 0x00, 0xFF, 0x03, 0xFC, 0xD5] ++ [.err]) =
    .ended (.err .rx) [] := by decide +kernel
theorem test_run_v35 : decodeRun Config.defaults (bytes [0x00, 0x00, 0xFF, 0x00, 0x00, 0x01]) =
    .ended (.err .postamble) [] := by decide +kernel
-- V49 after an acknowledgement (R181, R185); the bound of R183 with MAX_FRAMES = 1, the frames of V45
theorem test_wait_skips_ack : waitPhase Config.defaults 0x40
    (bytes [0x00, 0x00, 0xFF, 0x00, 0x00, 0x00, 0x00, 0x00, 0xFF, 0x03, 0xFD, 0xD5, 0x41, 0x01, 0xE9, 0x00]) =
    .ended (.data ⟨0x40, 0x01, [0x01]⟩) (some ⟨0x40, 0x01, [0x01]⟩) [] := by decide +kernel
theorem test_wait_bound : waitPhase { Config.defaults with maxFrames := some 1 } 0x40
    (bytes [0x00, 0x00, 0xFF, 0x00, 0x00, 0x00, 0x00, 0x00, 0xFF]) =
    .ended (.err .timeout) none (bytes [0x00, 0x00, 0xFF]) := by decide +kernel

/-! ### Single steps -/

-- V90: a NOP after a DATA outcome clears the kind and keeps the result
theorem test_nop : outcome (exec .nop { started 0 [] with rValid := true, rCmd := 0x40 }) =
    some (.none, .none, true, false, true) := by decide
theorem test_nop_keeps : (got (exec .nop { started 0 [] with rValid := true, rCmd := 0x40 })).map (·.rCmd) = some 0x40 := by
  decide
-- V1 with the sink's Ok; V8
theorem test_encode_step :
    (got (exec .encode { operands 0x40 [0x01, 0x20, 0x00] (started 1 []) with txAns := [.answer .ok] })).map (·.tx) =
      some [0x00, 0x00, 0xFF, 0x05, 0xFB, 0xD4, 0x40, 0x01, 0x20, 0x00, 0xCB, 0x00] := by decide +kernel
theorem test_encode_overlong : outcome (exec .encode { started 1 [] with cPlen := 254 }) =
    some (.err, .payload, false, false, true) := by decide
-- V9: a part from the frame's front, here three bytes
theorem test_encode_fail :
    (got (exec .encode { operands 0x40 [0x01, 0x20, 0x00] (started 1 []) with txAns := [.answer (.fail 3)] })).map (·.tx) =
      some [0x00, 0x00, 0xFF] := by decide +kernel
theorem test_decode_step : (got (exec .decode (started 2 []))).map (·.dstate) = some .sync := by decide
-- V51; the send phase of R175, R177 with the frame of V2
theorem test_sendwait_badop : outcome (exec .sendwait (plain (started 3 []))) =
    some (.err, .badOp, false, false, true) := by decide
theorem test_sendwait_step :
    (got (exec .sendwait { operands 0x02 [] (started 3 []) with txAns := [.answer .ok] })).map
      (fun t => (t.tx, t.xstate, t.dstate, t.wCmd)) =
      some ([0x00, 0x00, 0xFF, 0x02, 0xFE, 0xD4, 0x02, 0x2A, 0x00], .wait, .sync, 0x02) := by decide +kernel
theorem test_frame_out_ok :
    (got (exec (.frameOutData 0x02 []) { started 1 [] with txAns := [.answer .ok] })).map (·.tx) =
      some [0x00, 0x00, 0xFF, 0x02, 0xFE, 0xD4, 0x02, 0x2A, 0x00] := by decide +kernel
-- V11: the whole frame arrives at a scanning decoder
theorem test_frame_in : outcome (exec (.frameInData 0x00 0xFF 0x41 [0x00, 0xDE, 0xAD, 0xBE, 0xEF]) (decoding .sync [])) =
    some (.data, .none, true, false, true) := by decide +kernel
theorem test_frame_in_result :
    result 5 (exec (.frameInData 0x00 0xFF 0x41 [0x00, 0xDE, 0xAD, 0xBE, 0xEF]) (decoding .sync [])) =
      some (0x40, 0x00, 5, [0x00, 0xDE, 0xAD, 0xBE, 0xEF]) := by decide +kernel
-- V10
theorem test_frame_ack : outcome (exec (.frameAck 0x00 0xFF) (decoding .sync [])) =
    some (.ack, .none, false, false, true) := by decide +kernel
-- V33a, V24, V25, V27, V10, V39 with LEN = 1 (R95), V29 at their deciding byte
theorem test_class1 : outcome (exec .class1 (decoding .sync [.err])) = some (.err, .rx, false, false, true) := by decide
theorem test_class2 :
    outcome (exec .class2 { decoding .body (bytes [0x00]) with idx := 3, len := 3, lcs := 0xFC }) =
      some (.err, .lcs, false, false, true) := by decide
theorem test_class2_waits : outcome (exec .class2 { decoding .body (bytes [0x00]) with idx := 2, len := 3, lcs := 0xFC }) =
    some (.none, .none, false, true, false) := by decide
theorem test_class3 : outcome (exec .class3 (holding [0xD5, 0x41, 0x00] (decoding .dcs (bytes [0xEB])))) =
    some (.err, .dcs, false, false, true) := by decide +kernel
theorem test_class4 : outcome (exec .class4 (holding [0xD5, 0x41, 0x00] (decoding .post (bytes [0x01])))) =
    some (.err, .postamble, false, false, true) := by decide +kernel
theorem test_class5 : outcome (exec .class5 (decoding .post (bytes [0x00]))) = some (.ack, .none, false, false, true) := by
  decide
theorem test_class6 : outcome (exec .class6 (holding [0xD4] (decoding .post (bytes [0x00])))) =
    some (.err, .direction, false, false, true) := by decide +kernel
theorem test_class7 : outcome (exec .class7 (holding [0xD5] (decoding .post (bytes [0x00])))) =
    some (.err, .frameLen, false, false, true) := by decide +kernel
-- V17: LEN = 17, the one length where the two bases differ
theorem test_class8_quirk_a : result 2 (exec .class8 (holding ([0xD5, 0x43, 0x00, 0xA1] ++ List.replicate 13 0xA2)
    (decoding .post (bytes [0x00])))) = some (0x42, 0x00, 14, [0xA1, 0xA2]) := by decide +kernel
theorem test_class8_quirk_b : result 2 (exec .class8 { holding ([0xD5, 0x43, 0x00, 0xA1] ++ List.replicate 13 0xA2)
    (decoding .post (bytes [0x00])) with params := { Config.defaults with quirkBasis := .b } }) =
    some (0x42, 0x00, 15, [0x00, 0xA1]) := by decide +kernel
-- V49: a failing status is delivered; V16: LEN = 16, nothing dropped; V21: another command, nothing dropped
theorem test_cmd_exchange : result 1 (exec .cmdDataExchange (holding [0xD5, 0x41, 0x01] (decoding .post []))) =
    some (0x40, 0x01, 1, [0x01]) := by decide +kernel
theorem test_cmd_comm_thru : result 2 (exec .cmdCommThru (holding ([0xD5, 0x43, 0x00, 0xA1] ++ List.replicate 12 0xA2)
    (decoding .post []))) = some (0x42, 0x00, 14, [0x00, 0xA1]) := by decide +kernel
theorem test_cmd_other : result 2 (exec (.cmdOther 0x4A) (holding ([0xD5, 0x4B, 0x00, 0xA1] ++ List.replicate 14 0xA2)
    (decoding .post []))) = some (0x4A, 0x00, 16, [0x00, 0xA1]) := by decide +kernel
-- V40: a frame for another command is skipped, its registers written
theorem test_wait_skip : outcome (exec (.cmdOther 0x20) (holding [0xD5, 0x21, 0xAA] (waiting .post []))) =
    some (.none, .none, true, true, false) := by decide +kernel
-- R27, R210
theorem test_kind_none : outcome (exec .kindNone (started 1 [])) = some (.none, .none, false, false, true) := by decide
theorem test_kind_ack : outcome (exec .kindAck (started 2 [])) = some (.ack, .none, false, false, true) := by decide
theorem test_kind_data : outcome (exec .kindData (holding [0xD5, 0x41] (decoding .post []))) =
    some (.data, .none, true, false, true) := by decide +kernel
theorem test_kind_err : outcome (exec (.kindErr .lcs) (started 2 [])) = some (.err, .lcs, false, false, true) := by decide
theorem test_err_none : outcome (exec .errNone (started 1 [])) = some (.none, .none, false, false, true) := by decide
theorem test_errTx : outcome (exec .errTx (started 2 [])) = some (.err, .tx, false, false, true) := by decide
theorem test_errRx : outcome (exec .errRx (started 2 [])) = some (.err, .rx, false, false, true) := by decide
theorem test_errLcs : outcome (exec .errLcs (started 2 [])) = some (.err, .lcs, false, false, true) := by decide
theorem test_errDcs : outcome (exec .errDcs (started 2 [])) = some (.err, .dcs, false, false, true) := by decide
theorem test_errPostamble : outcome (exec .errPostamble (started 2 [])) = some (.err, .postamble, false, false, true) := by decide
theorem test_errDirection : outcome (exec .errDirection (started 2 [])) = some (.err, .direction, false, false, true) := by decide
theorem test_errFrameLen : outcome (exec .errFrameLen (started 2 [])) = some (.err, .frameLen, false, false, true) := by decide
theorem test_errPayload : outcome (exec .errPayload (started 2 [])) = some (.err, .payload, false, false, true) := by decide
theorem test_errTimeout : outcome (exec .errTimeout (started 2 [])) = some (.err, .timeout, false, false, true) := by decide
theorem test_errBadOp : outcome (exec .errBadOp (started 2 [])) = some (.err, .badOp, false, false, true) := by decide
theorem test_error_codes : [ErrCode.none, .tx, .rx, .lcs, .dcs, .postamble, .direction, .frameLen, .payload, .timeout,
    .badOp].map errCode = [0, 1, 2, 3, 4, 5, 6, 7, 8, 9, 10] := by decide
theorem test_kind_codes : [Kind.none, .ack, .data, .err].map kindCode = [0, 1, 2, 3] := by decide
-- 42_decode_fsm.md R150, 43_dispatch.md R176, 10_state.md R27: the codes
theorem test_codes : [DState.idle, .sync, .hdr, .body, .dcs, .post].map dstateCode = [0, 1, 2, 3, 4, 5] := by decide
theorem test_xcodes : [XState.idle, .send, .wait].map xstateCode = [0, 1, 2] := by decide
-- V91: a start while busy changes nothing; V94: what the host reads after a start
theorem test_start_busy : got (step { decoding .sync [] with agenda := [.host .start] }) = some (decoding .sync []) := by
  decide +kernel
theorem test_read_after_start : (got (step { started 2 [] with agenda := [.host (.read .rKind)] })).map (·.hostRead) =
    some 0 := by decide
-- 10_state.md R26, R27, 60_exceptions.md R210: R_KIND and R_ERR read after a bad data checksum, BUSY read while busy
/-- What a host read of `r` gives. -/
def reading (r : HostReg) (s : State) : Option Byte := (got (step { s with agenda := [.host (.read r)] })).map (·.hostRead)
theorem test_read_error : reading .rKind (complete .err .dcs State.reset) = some 3 ∧
    reading .rErr (complete .err .dcs State.reset) = some 4 ∧ reading .done (complete .err .dcs State.reset) = some 1 ∧
    reading .busy (started 2 []) = some 1 := by decide
-- R29, R31: the result registers, the second byte of R_DATA
theorem test_read_result : let s := { State.reset with rValid := true, rCmd := 0x40, rStatus := 0x27, rLen := 2,
                                                       rData := 0xA5 :: 0x5A :: List.replicate 253 0 }
    reading .rValid s = some 1 ∧ reading .rCmd s = some 0x40 ∧ reading .rStatus s = some 0x27 ∧ reading .rLen s = some 2 ∧
    reading (.rData 1) s = some 0x5A := by decide
-- 00_scope.md R11: an endless source answers the request of a scanning decoder, and no other
theorem test_endless_answers : (got (step { decoding .sync [] with source := .endless 7 })).map (fun t => (t.rx, t.source)) =
    some ([Config.freeRxEvent 7], .endless 8) := rfl
theorem test_endless_waits : (got (step { State.reset with source := .endless 7 })).map (fun t => (t.rx, t.source)) =
    some ([], .endless 7) := by decide
-- V92: reset in the middle of a DECODE
theorem test_reset : (got (step { decoding .sync (bytes [0x11]) with agenda := [.host .reset] })).map
    (fun t => (t.busy, t.done, t.dstate, t.rx)) = some (false, false, .idle, bytes [0x11]) := by decide
-- R251: an operand write while busy is refused
theorem test_write_busy : got (step { decoding .sync [] with agenda := [.host (.writeCmd 1)] }) = none := by decide +kernel
-- the table word placed runs as the first instruction after reset: OP = 10, then the V10 frame
theorem test_fetch_decode : (got (step (State.reset.withFetchWord 8 0b10))).map (·.dstate) = some .sync := by decide
theorem test_fetch_ack : outcome (step (State.reset.withFetchWord 48 0xFF0000)) = some (.ack, .none, false, false, true) := by
  decide +kernel

/-! ### Witnesses: states and operands that meet the hypotheses of the statements, clause by clause

Two shapes recur: what a clause asks of the state, and what it asks of the sink's next event. -/

/-- 253 bytes, the most a payload may have. -/
def full : List Byte := List.replicate 253 0x5A

def turn (m : Turn) (s : State) : State := { s with agenda := [m] }

def sink (e : TxEvent) (s : State) : State := { s with txAns := [e] }

theorem full_length : full.length ≤ 253 := by decide +kernel

theorem wf_decoding (d : DState) (rx : List RxEvent) : Memory.wf (decoding d rx) = true := reset_memory_wf

theorem wf_waiting (d : DState) (rx : List RxEvent) : Memory.wf (waiting d rx) = true := reset_memory_wf

theorem wf_bounded (d : DState) (rx : List RxEvent) : Memory.wf (bounded d rx) = true := reset_memory_wf

theorem wf_started (op : BitVec 2) (rx : List RxEvent) : Memory.wf (started op rx) = true := reset_memory_wf

-- ResetInputSetsRegisters: the host's reset in a running DECODE; a frame cut after none and after all of its bytes
theorem witness_reset_host : (turn (.host .reset) (decoding .sync [])).agenda = .host .reset :: [] := rfl
theorem witness_reset_encode : (sink (.cut 0) (operands 0x40 full (started 1 []))).cPlen.toNat ≤ 253 ∧
    nextTxEvent (sink (.cut 0) (operands 0x40 full (started 1 []))) = .cut 0 := by decide +kernel
theorem witness_reset_sendwait : (sink (.cut 262) (operands 0x40 full (started 3 []))).params.hasDemux = true ∧
    (sink (.cut 262) (operands 0x40 full (started 3 []))).cPlen.toNat ≤ 253 ∧
    nextTxEvent (sink (.cut 262) (operands 0x40 full (started 3 []))) = .cut 262 := by decide +kernel
theorem witness_reset_frame : full.length ≤ 253 ∧ nextTxEvent (sink (.cut 9) (started 1 [])) = .cut 9 := by decide +kernel

/-- A decoder that scans for a preamble, a byte being there. -/
theorem inv_decoding : Inv (decoding .sync [.byte 0x00]) where
  mem := wf_decoding _ _
  busyDone := by decide
  idle := by decide
  cleared := by decide
  errKind := by decide
  dataValid := by decide
  resultLen := by decide
  fresh := by decide
  noSend := by decide
  plainRun := by decide
  waitRun := by decide
  bound := fun _ h => by cases h
  hdr := by decide
  body := by decide
  dcs := by decide
  post := by decide

/-- The frame data `D5 41` of the least frame for command id 0x40, at its postamble, in a wait for it. -/
def matching : State := holding [0xD5, 0x41] (waiting .post (bytes [0x00]))

theorem inv_matching : Inv matching where
  mem := by
    rw [memory_wf_iff]
    exact ⟨List.length_replicate, List.length_replicate, by decide +kernel, List.length_replicate⟩
  busyDone := by decide
  idle := by decide
  cleared := by decide
  errKind := by decide
  dataValid := by decide
  resultLen := by decide
  fresh := by decide
  noSend := by decide
  plainRun := by decide
  waitRun := by decide
  bound := fun _ h => by cases h
  hdr := by decide
  body := by decide
  dcs := by decide
  post := by decide

-- StepKeepsInvariant, StreamsOnlyMoveForward: a step from a state that meets the invariant
theorem witness_step : Inv (decoding .sync [.byte 0x00]) ∧ ∃ t, step (decoding .sync [.byte 0x00]) = .next t :=
  ⟨inv_decoding, _, rfl⟩
-- OperandsWrittenOnlyByHost
theorem witness_operands : (∀ a rest, (decoding .sync [.byte 0x00]).agenda ≠ .host a :: rest) ∧
    (∀ n rest, (decoding .sync [.byte 0x00]).txAns ≠ .cut n :: rest) ∧
    ∃ t, step (decoding .sync [.byte 0x00]) = .next t :=
  ⟨fun _ _ h => (by cases h), fun _ _ h => (by cases h), _, rfl⟩
-- ResultsWrittenOnlyByData: a step that takes no postamble; one that takes a bad postamble
theorem witness_results_scan : (∀ rest, (decoding .sync [.byte 0x00]).agenda ≠ .host .reset :: rest) ∧
    (∀ n rest, (decoding .sync [.byte 0x00]).txAns ≠ .cut n :: rest) ∧
    (∃ t, step (decoding .sync [.byte 0x00]) = .next t) ∧ (decoding .sync [.byte 0x00]).dstate ≠ .post :=
  ⟨fun _ h => (by cases h), fun _ _ h => (by cases h), ⟨_, rfl⟩, by decide⟩
theorem witness_results_postamble : (∀ rest, (decoding .post [.byte 0x01]).agenda ≠ .host .reset :: rest) ∧
    (∀ n rest, (decoding .post [.byte 0x01]).txAns ≠ .cut n :: rest) ∧
    ∃ t, step (decoding .post [.byte 0x01]) = .next t ∧ (decoding .post [.byte 0x01]).xstate ≠ .wait ∧ t.rKind ≠ .data :=
  ⟨fun _ h => (by cases h), fun _ _ h => (by cases h), _, rfl, by decide, by decide⟩
-- WaitEndsOnlyWithMatch
theorem witness_wait_ends : Inv matching ∧ matching.xstate = .wait ∧
    ∃ t, step matching = .next t ∧ t.rKind = .data :=
  ⟨inv_matching, rfl, _, rfl, by decide +kernel⟩

-- `BlockMoves`, which several statements ask for: each of its three forms, in any busy state
theorem witness_alone (s : State) (h : s.agenda = []) : BlockMoves s s := .alone h
theorem witness_turn (s : State) : BlockMoves (turn .fce s) ((turn .fce s).withAgenda []) := .turn [] rfl
theorem witness_awaited (s : State) (h : s.busy = true) : BlockMoves (turn .await s) (turn .await s) := .awaited [] rfl h

-- StartBeginsOperation: OP = 3 with the demultiplexer, OP = 2 without; the first step; a start while busy
theorem witness_start : (turn (.host .start) { State.reset with op := 3 }).agenda = .host .start :: [] ∧
    (turn (.host .start) { State.reset with op := 3 }).busy = false ∧
    ¬((turn (.host .start) { State.reset with op := 3 }).op = 3 ∧
      (turn (.host .start) { State.reset with op := 3 }).params.hasDemux = false) := ⟨rfl, rfl, by decide⟩
theorem witness_start_plain : (turn (.host .start) (plain { State.reset with op := 2 })).agenda = .host .start :: [] ∧
    (turn (.host .start) (plain { State.reset with op := 2 })).busy = false ∧
    ¬((turn (.host .start) (plain { State.reset with op := 2 })).op = 3 ∧
      (turn (.host .start) (plain { State.reset with op := 2 })).params.hasDemux = false) := ⟨rfl, rfl, by decide⟩
theorem witness_first_step : BlockMoves (started 3 []) (started 3 []) ∧ (started 3 []).busy = true ∧
    (started 3 []).dstate = .idle ∧ (started 3 []).xstate = .idle := ⟨.alone rfl, rfl, rfl, rfl⟩
theorem witness_start_busy : (turn (.host .start) (decoding .sync [])).agenda = .host .start :: [] ∧
    (turn (.host .start) (decoding .sync [])).busy = true := ⟨rfl, rfl⟩
-- ReservedOpRaisesBadOp
theorem witness_bad_op : (turn (.host .start) (plain { State.reset with op := 3 })).agenda = .host .start :: [] ∧
    (turn (.host .start) (plain { State.reset with op := 3 })).busy = false ∧
    (turn (.host .start) (plain { State.reset with op := 3 })).op = 3 ∧
    (turn (.host .start) (plain { State.reset with op := 3 })).params.hasDemux = false := ⟨rfl, rfl, rfl, rfl⟩
-- HostWritesOperands, each register; the last byte of C_PAY
theorem witness_write_op : (turn (.host (.writeOp 3)) State.reset).agenda = .host (.writeOp 3) :: [] := rfl
theorem witness_write_cmd : (turn (.host (.writeCmd 0xFF)) (decoding .sync [])).agenda = .host (.writeCmd 0xFF) :: [] := rfl
theorem witness_write_plen : (turn (.host (.writePlen 255)) State.reset).agenda = .host (.writePlen 255) :: [] := rfl
theorem witness_write_pay : (turn (.host (.writePay 252 0x01)) State.reset).agenda = .host (.writePay 252 0x01) :: [] := rfl
-- HostReadHasNoSideEffect: a settled read of the last byte of R_DATA, and of R_ERR while busy
theorem witness_read : (turn (.host (.read (.rData 254))) State.reset).agenda = .host (.read (.rData 254)) :: [] ∧
    (turn (.host (.read (.rData 254))) State.reset).busy = false := ⟨rfl, rfl⟩
theorem witness_read_busy : (turn (.host (.read .rErr)) (decoding .sync [])).agenda = .host (.read .rErr) :: [] ∧
    (HostReg.rErr = .busy ∨ HostReg.rErr = .done ∨ HostReg.rErr = .rKind ∨ HostReg.rErr = .rErr) := ⟨rfl, by decide⟩
-- ArrivingEventWaits
theorem witness_arrive : (turn (.rx .err) State.reset).agenda = .rx .err :: [] := rfl
-- SilentSourceHangs
theorem witness_hang : (decoding .post []).agenda = [] ∧ (decoding .post []).busy = true ∧ (decoding .post []).dstate ≠ .idle ∧
    (decoding .post []).rx = [] ∧ (decoding .post []).source = .silent := ⟨rfl, rfl, by decide, rfl, rfl⟩
theorem witness_hang_awaited : (turn .await (decoding .hdr [])).agenda = .await :: [] ∧ (turn .await (decoding .hdr [])).busy = true ∧
    (turn .await (decoding .hdr [])).dstate ≠ .idle ∧ (turn .await (decoding .hdr [])).rx = [] ∧
    (turn .await (decoding .hdr [])).source = .silent := ⟨rfl, rfl, by decide, rfl, rfl⟩
-- StepRunsInstruction: an idle block with events waiting, the operation, a row, a byte that meets none, a silent and an
-- endless source, the end of the host's wait
theorem witness_runs_idle : BlockMoves (turn .fce { State.reset with rx := [.byte 0] })
      ((turn .fce { State.reset with rx := [.byte 0] }).withAgenda []) ∧
    (turn .fce { State.reset with rx := [.byte 0] }).busy = false := ⟨witness_turn _, rfl⟩
theorem witness_runs_op : BlockMoves (turn .fce (started 0 [])) ((turn .fce (started 0 [])).withAgenda []) ∧
    (turn .fce (started 0 [])).busy = true ∧ (turn .fce (started 0 [])).dstate = .idle ∧
    (turn .fce (started 0 [])).xstate = .idle := ⟨witness_turn _, rfl, rfl, rfl⟩
theorem witness_runs_row : BlockMoves (turn .await (decoding .hdr [.err])) (turn .await (decoding .hdr [.err])) ∧
    pendingRow (turn .await (decoding .hdr [.err])) = some .row1 := ⟨witness_awaited _ rfl, by decide⟩
theorem witness_runs_byte : BlockMoves (turn .await (decoding .hdr [.byte 7])) (turn .await (decoding .hdr [.byte 7])) ∧
    (turn .await (decoding .hdr [.byte 7])).busy = true ∧ (turn .await (decoding .hdr [.byte 7])).dstate ≠ .idle ∧
    (turn .await (decoding .hdr [.byte 7])).rx = .byte 7 :: [] ∧ pendingRow (turn .await (decoding .hdr [.byte 7])) = none :=
  ⟨witness_awaited _ rfl, rfl, by decide, rfl, by decide⟩
theorem witness_runs_source (c : RxSource) : BlockMoves { decoding .dcs [] with source := c } { decoding .dcs [] with source := c } ∧
    ({ decoding .dcs [] with source := c } : State).busy = true ∧ ({ decoding .dcs [] with source := c } : State).dstate ≠ .idle ∧
    ({ decoding .dcs [] with source := c } : State).rx = [] ∧ ({ decoding .dcs [] with source := c } : State).source = c :=
  ⟨.alone rfl, rfl, (by decide : DState.dcs ≠ .idle), rfl, rfl⟩
theorem witness_wait_over : (turn .await State.reset).agenda = .await :: [] ∧ (turn .await State.reset).busy = false :=
  ⟨rfl, rfl⟩
-- DecodeOfEncodeIsIdentity, EncodeOfDecodeIsIdentity
theorem witness_decode_encode : wellFormed 0x42 (.frameInData 0x12 0x34 0x00 full) = true := by decide +kernel
theorem witness_encode_decode : decode 0x40 .frame [0x00, 0x00, 0xFF, 0x00, 0x00, 0x00, 0x7F] =
    .ok (.frameAck 0x00 0xFF, [0x7F]) ∧ decode 0x40 .cmdid [0x40] = .ok (.cmdDataExchange, []) := by decide

-- EncodeWritesFrame: the bound from both sides, the sink's two answers, no answer listed
theorem witness_encode_overlong : 253 < ({ started 1 [] with cPlen := 254 } : State).cPlen.toNat := by decide
theorem witness_encode_ok : (sink (.answer .ok) (operands 0x40 full (started 1 []))).cPlen.toNat ≤ 253 ∧
    nextTxEvent (sink (.answer .ok) (operands 0x40 full (started 1 []))) = .answer .ok := by decide +kernel
theorem witness_encode_fail : (sink (.answer (.fail 0)) (operands 0x40 full (started 1 []))).cPlen.toNat ≤ 253 ∧
    nextTxEvent (sink (.answer (.fail 0)) (operands 0x40 full (started 1 []))) = .answer (.fail 0) := by decide +kernel
theorem witness_encode_unlisted : (started 1 []).txAns = [] := rfl
-- SendwaitSends
theorem witness_send_ok : (sink (.answer .ok) (operands 0x40 full (started 3 []))).params.hasDemux = true ∧
    (sink (.answer .ok) (operands 0x40 full (started 3 []))).cPlen.toNat ≤ 253 ∧
    nextTxEvent (sink (.answer .ok) (operands 0x40 full (started 3 []))) = .answer .ok ∧
    (sink (.answer .ok) (operands 0x40 full (started 3 []))).params.maxFrames ≠ some 0 := by decide +kernel
/-- A `SENDWAIT` with `MAX_FRAMES = 0`. -/
def unread : State :=
  sink (.answer .ok) { started 3 [] with params := { Config.defaults with maxFrames := some 0 } }
theorem witness_send_bound : unread.params.hasDemux = true ∧ unread.cPlen.toNat ≤ 253 ∧ nextTxEvent unread = .answer .ok ∧
    unread.params.maxFrames = some 0 := by decide
theorem witness_send_fail : (sink (.answer (.fail 262)) (started 3 [])).params.hasDemux = true ∧
    (sink (.answer (.fail 262)) (started 3 [])).cPlen.toNat ≤ 253 ∧
    nextTxEvent (sink (.answer (.fail 262)) (started 3 [])) = .answer (.fail 262) := by decide
theorem witness_send_overlong : ({ started 3 [] with cPlen := 255 } : State).params.hasDemux = true ∧
    253 < ({ started 3 [] with cPlen := 255 } : State).cPlen.toNat := by decide
-- SendwaitWithoutDemux
theorem witness_send_plain : (plain (started 3 [])).params.hasDemux = false := rfl
-- EncodeFrameLayout, EncoderChecksumLaws, EncoderFrameIsRejected: `full_length`. EncodeFrameInjective:
theorem witness_injective : full.length ≤ 253 ∧ full.length ≤ 253 ∧ encodeFrame 0x40 full = encodeFrame 0x40 full :=
  ⟨full_length, full_length, rfl⟩
-- FrameOutDataIsWritten
/-- The send phase of a `SENDWAIT`. -/
def sending : State := { started 3 [] with xstate := .send, txAns := [.answer .ok] }
theorem witness_out_ok : full.length ≤ 253 ∧ nextTxEvent (sink (.answer .ok) (started 1 [])) = .answer .ok ∧
    (sink (.answer .ok) (started 1 [])).xstate ≠ .send := by decide +kernel
theorem witness_out_send : full.length ≤ 253 ∧ nextTxEvent sending = .answer .ok ∧ sending.xstate = .send ∧
    sending.params.maxFrames ≠ some sending.frames := by decide +kernel
theorem witness_out_bound : full.length ≤ 253 ∧ nextTxEvent { unread with xstate := .send } = .answer .ok ∧
    ({ unread with xstate := .send } : State).xstate = .send ∧
    ({ unread with xstate := .send } : State).params.maxFrames = some ({ unread with xstate := .send } : State).frames := by
  decide +kernel
theorem witness_out_fail : full.length ≤ 253 ∧
    nextTxEvent (sink (.answer (.fail 1)) (started 1 [])) = .answer (.fail 1) := by decide +kernel
theorem witness_out_overlong : 253 < (0x00 :: full).length := by decide +kernel
-- InboundFrameWaits: idle; started, its first step not made
theorem witness_frame_waits_idle : State.reset.busy = false := rfl
theorem witness_frame_waits_started : (started 2 []).dstate = .idle := rfl
-- AckFrameAccepted
theorem witness_ack : (decoding .sync []).busy = true ∧ (decoding .sync []).dstate = .sync ∧ (decoding .sync []).rx = [] ∧
    (decoding .sync []).xstate = .idle := ⟨rfl, rfl, rfl, rfl⟩
theorem witness_ack_wait : (waiting .sync []).busy = true ∧ (waiting .sync []).dstate = .sync ∧ (waiting .sync []).rx = [] ∧
    (waiting .sync []).xstate = .wait ∧ (waiting .sync []).params.maxFrames ≠ some ((waiting .sync []).frames + 1) :=
  ⟨rfl, rfl, rfl, rfl, by decide⟩
theorem witness_ack_bound : (bounded .sync []).busy = true ∧ (bounded .sync []).dstate = .sync ∧ (bounded .sync []).rx = [] ∧
    (bounded .sync []).xstate = .wait ∧ (bounded .sync []).params.maxFrames = some ((bounded .sync []).frames + 1) :=
  ⟨rfl, rfl, rfl, rfl, rfl⟩
-- InboundFrameDelivered
theorem witness_in : full.length ≤ 253 ∧ Memory.wf (decoding .sync []) = true ∧ (decoding .sync []).busy = true ∧
    (decoding .sync []).dstate = .sync ∧ (decoding .sync []).rx = [] ∧ (decoding .sync []).xstate = .idle :=
  ⟨full_length, wf_decoding _ _, rfl, rfl, rfl, rfl⟩
theorem witness_in_match : full.length ≤ 253 ∧ Memory.wf (waiting .sync []) = true ∧ (waiting .sync []).busy = true ∧
    (waiting .sync []).dstate = .sync ∧ (waiting .sync []).rx = [] ∧ (waiting .sync []).xstate = .wait ∧
    (0x41 : Byte) = (waiting .sync []).wCmd + 1 :=
  ⟨full_length, wf_waiting _ _, rfl, rfl, rfl, rfl, by decide⟩
theorem witness_in_skip : full.length ≤ 253 ∧ Memory.wf (waiting .sync []) = true ∧ (waiting .sync []).busy = true ∧
    (waiting .sync []).dstate = .sync ∧ (waiting .sync []).rx = [] ∧ (waiting .sync []).xstate = .wait ∧
    (0x40 : Byte) ≠ (waiting .sync []).wCmd + 1 ∧
    (waiting .sync []).params.maxFrames ≠ some ((waiting .sync []).frames + 1) :=
  ⟨full_length, wf_waiting _ _, rfl, rfl, rfl, rfl, by decide, by decide⟩
theorem witness_in_bound : full.length ≤ 253 ∧ Memory.wf (bounded .sync []) = true ∧ (bounded .sync []).busy = true ∧
    (bounded .sync []).dstate = .sync ∧ (bounded .sync []).rx = [] ∧ (bounded .sync []).xstate = .wait ∧
    (0x40 : Byte) ≠ (bounded .sync []).wCmd + 1 ∧
    (bounded .sync []).params.maxFrames = some ((bounded .sync []).frames + 1) :=
  ⟨full_length, wf_bounded _ _, rfl, rfl, rfl, rfl, by decide, rfl⟩

-- the classification
theorem witness_class1 : (decoding .hdr [.err]).busy = true ∧ (decoding .hdr [.err]).dstate ≠ .idle ∧
    (decoding .hdr [.err]).rx = .err :: [] := ⟨rfl, by decide, rfl⟩
/-- A bad length checksum at the one body byte of a frame with `LEN = 0`, and at the last of a frame with `LEN = 255`. -/
def badLcs (n : Byte) : State := { decoding .body [.byte 0x07] with idx := n.setWidth 9, len := n, lcs := 0x07 }
theorem witness_class2 : (badLcs 0).busy = true ∧ (badLcs 0).dstate = .body ∧ (badLcs 0).rx = .byte 0x07 :: [] ∧
    (badLcs 0).idx.toNat = (badLcs 0).len.toNat ∧
    (badLcs 0).len + (if (badLcs 0).idx = 0 then 0x07 else (badLcs 0).lcs) ≠ 0 := ⟨rfl, rfl, rfl, by decide, by decide⟩
theorem witness_class2_long : (badLcs 255).busy = true ∧ (badLcs 255).dstate = .body ∧ (badLcs 255).rx = .byte 0x07 :: [] ∧
    (badLcs 255).idx.toNat = (badLcs 255).len.toNat ∧
    (badLcs 255).len + (if (badLcs 255).idx = 0 then 0x07 else (badLcs 255).lcs) ≠ 0 :=
  ⟨rfl, rfl, rfl, by decide, by decide⟩
theorem witness_class3 : (decoding .dcs [.byte 0x01]).busy = true ∧ (decoding .dcs [.byte 0x01]).dstate = .dcs ∧
    (decoding .dcs [.byte 0x01]).rx = .byte 0x01 :: [] ∧
    sum8 ((decoding .dcs [.byte 0x01]).fd.take (decoding .dcs [.byte 0x01]).len.toNat) + 0x01 ≠ 0 :=
  ⟨rfl, rfl, rfl, by decide⟩
theorem witness_class4 : (decoding .post [.byte 0xFF]).busy = true ∧ (decoding .post [.byte 0xFF]).dstate = .post ∧
    (decoding .post [.byte 0xFF]).rx = .byte 0xFF :: [] ∧ (0xFF : Byte) ≠ 0 := ⟨rfl, rfl, rfl, by decide⟩
theorem witness_class5 : (decoding .post [.byte 0]).busy = true ∧ (decoding .post [.byte 0]).dstate = .post ∧
    (decoding .post [.byte 0]).rx = .byte 0 :: [] ∧ (decoding .post [.byte 0]).len = 0 ∧
    (decoding .post [.byte 0]).xstate ≠ .wait := ⟨rfl, rfl, rfl, rfl, by decide⟩
theorem witness_class5_wait : (waiting .post [.byte 0]).busy = true ∧ (waiting .post [.byte 0]).dstate = .post ∧
    (waiting .post [.byte 0]).rx = .byte 0 :: [] ∧ (waiting .post [.byte 0]).len = 0 ∧
    (waiting .post [.byte 0]).xstate = .wait ∧
    (waiting .post [.byte 0]).params.maxFrames ≠ some ((waiting .post [.byte 0]).frames + 1) :=
  ⟨rfl, rfl, rfl, rfl, rfl, by decide⟩
theorem witness_class5_bound : (bounded .post [.byte 0]).busy = true ∧ (bounded .post [.byte 0]).dstate = .post ∧
    (bounded .post [.byte 0]).rx = .byte 0 :: [] ∧ (bounded .post [.byte 0]).len = 0 ∧
    (bounded .post [.byte 0]).xstate = .wait ∧
    (bounded .post [.byte 0]).params.maxFrames = some ((bounded .post [.byte 0]).frames + 1) :=
  ⟨rfl, rfl, rfl, rfl, rfl, rfl⟩
/-- A whole frame with frame data `fd` at its good postamble. -/
def whole (fd : List Byte) (s : State) : State := { holding fd s with dstate := .post, rx := .byte 0 :: [] }
theorem witness_class6 : (whole [0xD4] (decoding .post [])).busy = true ∧ (whole [0xD4] (decoding .post [])).dstate = .post ∧
    (whole [0xD4] (decoding .post [])).rx = .byte 0 :: [] ∧ (whole [0xD4] (decoding .post [])).len ≠ 0 ∧
    (whole [0xD4] (decoding .post [])).fd.getD 0 0 ≠ 0xD5 := ⟨rfl, rfl, rfl, by decide, by decide⟩
theorem witness_class7 : (whole [0xD5] (decoding .post [])).busy = true ∧ (whole [0xD5] (decoding .post [])).dstate = .post ∧
    (whole [0xD5] (decoding .post [])).rx = .byte 0 :: [] ∧ (whole [0xD5] (decoding .post [])).len = 1 ∧
    (whole [0xD5] (decoding .post [])).fd.getD 0 0 = 0xD5 := ⟨rfl, rfl, rfl, rfl, rfl⟩
/-- The least frame for command id `c`. -/
def least (c : Byte) (s : State) : State := whole [0xD5, c + 1] s
theorem witness_class8 : (least 0x40 (decoding .post [])).busy = true ∧ (least 0x40 (decoding .post [])).dstate = .post ∧
    (least 0x40 (decoding .post [])).rx = .byte 0 :: [] ∧ 2 ≤ (least 0x40 (decoding .post [])).len.toNat ∧
    (least 0x40 (decoding .post [])).fd.getD 0 0 = 0xD5 ∧ (least 0x40 (decoding .post [])).xstate ≠ .wait :=
  ⟨rfl, rfl, rfl, by decide, rfl, by decide⟩
theorem witness_class8_match : (least 0x40 (waiting .post [])).busy = true ∧ (least 0x40 (waiting .post [])).dstate = .post ∧
    (least 0x40 (waiting .post [])).rx = .byte 0 :: [] ∧ 2 ≤ (least 0x40 (waiting .post [])).len.toNat ∧
    (least 0x40 (waiting .post [])).fd.getD 0 0 = 0xD5 ∧ (least 0x40 (waiting .post [])).xstate = .wait ∧
    recoveredCmd ((least 0x40 (waiting .post [])).fd.take (least 0x40 (waiting .post [])).len.toNat) =
      (least 0x40 (waiting .post [])).wCmd := ⟨rfl, rfl, rfl, by decide, rfl, rfl, by decide⟩
theorem witness_class8_skip : (least 0xFF (waiting .post [])).busy = true ∧ (least 0xFF (waiting .post [])).dstate = .post ∧
    (least 0xFF (waiting .post [])).rx = .byte 0 :: [] ∧ 2 ≤ (least 0xFF (waiting .post [])).len.toNat ∧
    (least 0xFF (waiting .post [])).fd.getD 0 0 = 0xD5 ∧ (least 0xFF (waiting .post [])).xstate = .wait ∧
    recoveredCmd ((least 0xFF (waiting .post [])).fd.take (least 0xFF (waiting .post [])).len.toNat) ≠
      (least 0xFF (waiting .post [])).wCmd ∧
    (least 0xFF (waiting .post [])).params.maxFrames ≠ some ((least 0xFF (waiting .post [])).frames + 1) :=
  ⟨rfl, rfl, rfl, by decide, rfl, rfl, by decide, by decide⟩
theorem witness_class8_bound : (least 0xFF (bounded .post [])).busy = true ∧ (least 0xFF (bounded .post [])).dstate = .post ∧
    (least 0xFF (bounded .post [])).rx = .byte 0 :: [] ∧ 2 ≤ (least 0xFF (bounded .post [])).len.toNat ∧
    (least 0xFF (bounded .post [])).fd.getD 0 0 = 0xD5 ∧ (least 0xFF (bounded .post [])).xstate = .wait ∧
    recoveredCmd ((least 0xFF (bounded .post [])).fd.take (least 0xFF (bounded .post [])).len.toNat) ≠
      (least 0xFF (bounded .post [])).wCmd ∧
    (least 0xFF (bounded .post [])).params.maxFrames = some ((least 0xFF (bounded .post [])).frames + 1) :=
  ⟨rfl, rfl, rfl, by decide, rfl, rfl, by decide, rfl⟩
-- UnmetRowDoesNothing: no event is there; the event meets another row
theorem witness_unmet : pendingRow (decoding .post []) ≠ some .row5 := by decide
theorem witness_unmet_other : pendingRow (decoding .post [.byte 0]) ≠ some .row4 := by decide

-- StatusBearingDelivery: no status byte; a status byte with 14 remaining bytes (basis A: kept) and with 15 (dropped)
theorem witness_status_exchange : (holding [0xD5, 0x41] (decoding .post [])).xstate ≠ .wait ∧
    (frameData (holding [0xD5, 0x41] (decoding .post []))).length ≤ 2 := by decide +kernel
theorem witness_status_kept : (holding ([0xD5, 0x41] ++ List.replicate 14 0) (decoding .post [])).xstate ≠ .wait ∧
    2 < (frameData (holding ([0xD5, 0x41] ++ List.replicate 14 0) (decoding .post []))).length ∧
    ¬(14 < (frameData (holding ([0xD5, 0x41] ++ List.replicate 14 0) (decoding .post []))).length - 2) := by decide +kernel
theorem witness_status_dropped : (holding ([0xD5, 0x43] ++ List.replicate 15 0) (decoding .post [])).xstate ≠ .wait ∧
    2 < (frameData (holding ([0xD5, 0x43] ++ List.replicate 15 0) (decoding .post []))).length ∧
    (frameData (holding ([0xD5, 0x43] ++ List.replicate 15 0) (decoding .post []))).getD 2 0 = Config.defaults.statusSuccess ∧
    14 < (frameData (holding ([0xD5, 0x43] ++ List.replicate 15 0) (decoding .post []))).length - 2 ∧
    Config.defaults.quirkBasis = .a := by decide +kernel
theorem witness_status_row : (Instr.cmdCommThru = .cmdDataExchange ∧ (0x42 : Byte) = 0x40) ∨
    (Instr.cmdCommThru = .cmdCommThru ∧ (0x42 : Byte) = (decoding .post []).params.cmdCommThru) := by decide
-- OtherCommandDelivery
theorem witness_other : (decoding .post []).xstate ≠ .wait := by decide
-- CommandRowsInWait: the id waited for, another, and another at the bound; what `DeliveredAs` tells apart stands above
theorem witness_row_match : (waiting .post []).xstate = .wait ∧
    ((Instr.cmdDataExchange = .cmdDataExchange ∧ (0x40 : Byte) = 0x40 ∧ true = true) ∨
      (Instr.cmdDataExchange = .cmdCommThru ∧ (0x40 : Byte) = (waiting .post []).params.cmdCommThru ∧ true = true) ∨
      (Instr.cmdDataExchange = .cmdOther 0x40 ∧ true = false)) ∧ (0x40 : Byte) = (waiting .post []).wCmd := by decide
theorem witness_row_skip : (waiting .post []).xstate = .wait ∧
    ((Instr.cmdCommThru = .cmdDataExchange ∧ (0x42 : Byte) = 0x40 ∧ true = true) ∨
      (Instr.cmdCommThru = .cmdCommThru ∧ (0x42 : Byte) = (waiting .post []).params.cmdCommThru ∧ true = true) ∨
      (Instr.cmdCommThru = .cmdOther 0x42 ∧ true = false)) ∧ (0x42 : Byte) ≠ (waiting .post []).wCmd ∧
    (waiting .post []).params.maxFrames ≠ some ((waiting .post []).frames + 1) := by decide
theorem witness_row_bound : (bounded .post []).xstate = .wait ∧
    ((Instr.cmdOther 0x02 = .cmdDataExchange ∧ (0x02 : Byte) = 0x40 ∧ false = true) ∨
      (Instr.cmdOther 0x02 = .cmdCommThru ∧ (0x02 : Byte) = (bounded .post []).params.cmdCommThru ∧ false = true) ∨
      (Instr.cmdOther 0x02 = .cmdOther 0x02 ∧ false = false)) ∧ (0x02 : Byte) ≠ (bounded .post []).wCmd ∧
    (bounded .post []).params.maxFrames = some ((bounded .post []).frames + 1) := by decide
-- KindsComplete, ErrorRowsRaise
theorem witness_err : ErrCode.badOp ≠ .none := by decide

-- the decoder's transitions
theorem witness_sync (b : Byte) : BlockMoves (decoding .sync [.byte b]) (decoding .sync [.byte b]) ∧
    (decoding .sync [.byte b]).busy = true ∧ (decoding .sync [.byte b]).dstate = .sync ∧
    (decoding .sync [.byte b]).rx = .byte b :: [] := ⟨.alone rfl, rfl, rfl, rfl⟩
/-- A decoder in state `d` with its counters. -/
def counting (d : DState) (i : BitVec 9) (n l b : Byte) : State := { decoding d [.byte b] with idx := i, len := n, lcs := l }
theorem witness_hdr (i : BitVec 9) : BlockMoves (counting .hdr i 0 0 0xFF) (counting .hdr i 0 0 0xFF) ∧
    (counting .hdr i 0 0 0xFF).busy = true ∧ (counting .hdr i 0 0 0xFF).dstate = .hdr ∧
    (counting .hdr i 0 0 0xFF).rx = .byte 0xFF :: [] := ⟨.alone rfl, rfl, rfl, rfl⟩
theorem witness_hdr_idx : ((0 : BitVec 9) = 0 ∨ (0 : BitVec 9) = 1) ∧ ((1 : BitVec 9) = 0 ∨ (1 : BitVec 9) = 1) ∧
    (counting .hdr 2 0 0 0xFF).idx = 2 := by decide
theorem witness_body (i : BitVec 9) (n l b : Byte) : BlockMoves (counting .body i n l b) (counting .body i n l b) ∧
    (counting .body i n l b).busy = true ∧ (counting .body i n l b).dstate = .body ∧
    (counting .body i n l b).rx = .byte b :: [] := ⟨.alone rfl, rfl, rfl, rfl⟩
theorem witness_body_first : (counting .body 0 1 0 0xFF).idx.toNat < (counting .body 0 1 0 0xFF).len.toNat ∧
    (counting .body 0 1 0 0xFF).idx = 0 := by decide
theorem witness_body_more : (counting .body 254 255 1 0).idx.toNat < (counting .body 254 255 1 0).len.toNat ∧
    (counting .body 254 255 1 0).idx ≠ 0 := by decide
theorem witness_body_ack : (counting .body 0 0 0 0).idx.toNat = (counting .body 0 0 0 0).len.toNat ∧
    (counting .body 0 0 0 0).idx = 0 ∧ (counting .body 0 0 0 0).len + 0 = 0 := by decide
theorem witness_body_last : (counting .body 255 255 1 0).idx.toNat = (counting .body 255 255 1 0).len.toNat ∧
    (counting .body 255 255 1 0).idx ≠ 0 ∧ (counting .body 255 255 1 0).len + (counting .body 255 255 1 0).lcs = 0 := by
  decide
theorem witness_body_bad : (counting .body 0 0 0 1).idx.toNat = (counting .body 0 0 0 1).len.toNat ∧
    (counting .body 0 0 0 1).len + (if (counting .body 0 0 0 1).idx = 0 then 1 else (counting .body 0 0 0 1).lcs) ≠ 0 := by
  decide
theorem witness_dcs (b : Byte) : BlockMoves (holding [0xD5] (decoding .dcs [.byte b])) (holding [0xD5] (decoding .dcs [.byte b])) ∧
    (holding [0xD5] (decoding .dcs [.byte b])).busy = true ∧ (holding [0xD5] (decoding .dcs [.byte b])).dstate = .dcs ∧
    (holding [0xD5] (decoding .dcs [.byte b])).rx = .byte b :: [] := ⟨.alone rfl, rfl, rfl, rfl⟩
theorem witness_dcs_sums :
    sum8 ((holding [0xD5] (decoding .dcs [.byte 0x2B])).fd.take (holding [0xD5] (decoding .dcs [.byte 0x2B])).len.toNat) +
      0x2B = 0 ∧
    sum8 ((holding [0xD5] (decoding .dcs [.byte 0x2C])).fd.take (holding [0xD5] (decoding .dcs [.byte 0x2C])).len.toNat) +
      0x2C ≠ 0 := by decide +kernel

-- DecodeConsumesFrame: `test_run_v12`, `test_run_v24`, `test_run_v25`, `test_run_v31`, `test_run_v33b`, `test_run_v35`, and:
theorem witness_consumes_ack : decodeRun Config.defaults (bytes [0x55, 0x00, 0x00, 0xFF, 0x00, 0x00, 0x00, 0x11]) =
    .ended .ack (bytes [0x11]) := by decide +kernel
-- DecoderRefinesProcedure, DecodeHasNoMemory, for any events; the second has other registers than the first
theorem witness_refines (rx : List RxEvent) : (started 2 rx).agenda = [] ∧ (started 2 rx).busy = true ∧
    (started 2 rx).dstate = .idle ∧ (started 2 rx).xstate = .idle ∧ (started 2 rx).op = 2 ∧
    Memory.wf (started 2 rx) = true ∧ (started 2 rx).source = .silent := ⟨rfl, rfl, rfl, rfl, rfl, wf_started 2 rx, rfl⟩
theorem witness_no_memory (rx : List RxEvent) :
    ({ started 2 rx with idx := 7, len := 9, lcs := 1, rCmd := 0x40 } : State).agenda = [] ∧
    ({ started 2 rx with idx := 7, len := 9, lcs := 1, rCmd := 0x40 } : State).busy = true ∧
    ({ started 2 rx with idx := 7, len := 9, lcs := 1, rCmd := 0x40 } : State).dstate = .idle ∧
    ({ started 2 rx with idx := 7, len := 9, lcs := 1, rCmd := 0x40 } : State).xstate = .idle ∧
    ({ started 2 rx with idx := 7, len := 9, lcs := 1, rCmd := 0x40 } : State).op = 2 ∧
    Memory.wf { started 2 rx with idx := 7, len := 9, lcs := 1, rCmd := 0x40 } = true ∧
    ({ started 2 rx with idx := 7, len := 9, lcs := 1, rCmd := 0x40 } : State).params = (started 2 rx).params ∧
    ({ started 2 rx with idx := 7, len := 9, lcs := 1, rCmd := 0x40 } : State).rx = (started 2 rx).rx ∧
    ({ started 2 rx with idx := 7, len := 9, lcs := 1, rCmd := 0x40 } : State).source = (started 2 rx).source :=
  ⟨rfl, rfl, rfl, rfl, rfl, wf_started 2 rx, rfl, rfl, rfl⟩
-- SendwaitRefinesProcedure
theorem witness_sendwait_refines (rx : List RxEvent) : (sink (.answer .ok) (started 3 rx)).agenda = [] ∧
    (sink (.answer .ok) (started 3 rx)).busy = true ∧ (sink (.answer .ok) (started 3 rx)).dstate = .idle ∧
    (sink (.answer .ok) (started 3 rx)).xstate = .idle ∧ (sink (.answer .ok) (started 3 rx)).op = 3 ∧
    (sink (.answer .ok) (started 3 rx)).params.hasDemux = true ∧ (sink (.answer .ok) (started 3 rx)).cPlen.toNat ≤ 253 ∧
    (sink (.answer .ok) (started 3 rx)).txAns = .answer .ok :: [] ∧ Memory.wf (sink (.answer .ok) (started 3 rx)) = true ∧
    (sink (.answer .ok) (started 3 rx)).source = .silent :=
  ⟨rfl, rfl, rfl, rfl, rfl, rfl, show (0 : Byte).toNat ≤ 253 by decide, rfl, wf_started 3 rx, rfl⟩
-- DecoderRefinesOnEndlessStream, SendwaitRefinesOnEndlessStream: an endless stream whose beginning ends the run
/-- The operation `op` just started on the bytes `bs` and whatever the endless source gives after them. -/
def unending (op : BitVec 2) (bs : List Byte) : State := { sink (.answer .ok) (started op (bytes bs)) with source := .endless 0 }
theorem witness_endless (op : BitVec 2) (bs : List Byte) : (unending op bs).agenda = [] ∧ (unending op bs).busy = true ∧
    (unending op bs).dstate = .idle ∧ (unending op bs).xstate = .idle ∧ (unending op bs).op = op ∧
    Memory.wf (unending op bs) = true ∧ (unending op bs).source = .endless 0 ∧ (unending op bs).params.hasDemux = true ∧
    (unending op bs).cPlen.toNat ≤ 253 ∧ (unending op bs).txAns = .answer .ok :: [] :=
  ⟨rfl, rfl, rfl, rfl, rfl, wf_started op (bytes bs), rfl, rfl, show (0 : Byte).toNat ≤ 253 by decide, rfl⟩
theorem witness_endless_decode : decodeRun Config.defaults (rxStream (unending 2 [0x00, 0x00, 0xFF, 0x00, 0x00, 0x00]) 1) =
    .ended .ack [Config.freeRxEvent 0] := by rfl
theorem witness_endless_wait :
    waitPhase Config.defaults 0x00 (rxStream (unending 3 [0x00, 0x00, 0xFF, 0x02, 0xFE, 0xD5, 0x01, 0x2A, 0x00]) 1) =
      .ended (.data ⟨0x00, 0x00, []⟩) (some ⟨0x00, 0x00, []⟩) [Config.freeRxEvent 0] := by rfl
-- ResponseRoundTrip: no status byte; a status byte that is dropped; one that is kept
/-- The events of noise 0x55 and the response `RESP(c, Q)`. -/
def respond (c : Byte) (q : List Byte) : List RxEvent := bytes (0x55 :: frameBytes 0x00 0xFF 0xD5 (c + 1) q)
theorem witness_response (c : Byte) (q : List Byte) : (started 2 (respond c q)).agenda = [] ∧
    (started 2 (respond c q)).busy = true ∧ (started 2 (respond c q)).dstate = .idle ∧
    (started 2 (respond c q)).xstate = .idle ∧ (started 2 (respond c q)).op = 2 ∧
    Memory.wf (started 2 (respond c q)) = true ∧ (∀ b ∈ [(0x55 : Byte)], b ≠ 0) ∧
    (started 2 (respond c q)).rx = ([0x55] ++ frameBytes 0x00 0xFF 0xD5 (c + 1) q).map .byte ++ [] :=
  ⟨rfl, rfl, rfl, rfl, rfl, wf_started 2 _, by decide, (List.append_nil _).symm⟩
theorem witness_response_plain : full.length ≤ 253 ∧ ¬((0x4A : Byte) = 0x40 ∨ (0x4A : Byte) = Config.defaults.cmdCommThru) := by
  decide +kernel
theorem witness_response_dropped : ((0x40 : Byte) = 0x40 ∨ (0x40 : Byte) = Config.defaults.cmdCommThru) ∧
    (List.replicate 15 (0 : Byte)) = 0 :: List.replicate 14 0 ∧ (0 : Byte) = Config.defaults.statusSuccess ∧
    14 < (if Config.defaults.quirkBasis = .a then (List.replicate 15 (0 : Byte)).length
      else (List.replicate 15 (0 : Byte)).length - 1) := by decide
theorem witness_response_kept : ((0x42 : Byte) = 0x40 ∨ (0x42 : Byte) = Config.defaults.cmdCommThru) ∧
    (List.replicate 14 (0 : Byte)) = 0 :: List.replicate 13 0 ∧
    ¬((0 : Byte) = Config.defaults.statusSuccess ∧
      14 < (if Config.defaults.quirkBasis = .a then (List.replicate 14 (0 : Byte)).length
        else (List.replicate 14 (0 : Byte)).length - 1)) := by decide

end Sys2Proof.Tests
end

/-! # The block's move (`StepRunsInstruction`)

What the step is where the block's move is next, read off the machine's sequencing registers. -/

section
namespace Sys2Proof.Machine

/-! ### What the block runs next -/

theorem requesting_iff (s : State) : requesting s = true ↔ s.busy = true ∧ s.dstate ≠ .idle := by
  simp [requesting]

theorem nextInstr_of_not_busy {s : State} (hb : s.busy = false) : nextInstr s = none := by
  simp [nextInstr, hb]

theorem quietStep_of_not_busy {s : State} (hb : s.busy = false) : quietStep s = s := by
  simp [quietStep, hb]

theorem nextInstr_of_started {s : State} (hb : s.busy = true) (hd : s.dstate = .idle) (hx : s.xstate = .idle) :
    nextInstr s = some (decodeOp s.op) := by
  simp [nextInstr, hb, hd, hx]

theorem nextInstr_of_running {s : State} (hb : s.busy = true) (hd : s.dstate ≠ .idle) :
    nextInstr s = (pendingRow s).map rowInstr := by
  cases h : s.dstate <;> simp_all [nextInstr]

theorem quietStep_of_running {s : State} (hb : s.busy = true) (hd : s.dstate ≠ .idle) : quietStep s = goOn s := by
  cases h : s.dstate <;> simp_all [quietStep]

/-- What an event meets depends on the decoder's registers only. -/
theorem verdict_congr {s t : State} (h : SameDecoder s t) : verdict t = verdict s := by
  obtain ⟨hd, hi, hn, hl, hf⟩ := h
  funext e
  cases e with
  | err => simp only [verdict, hd]
  | byte b =>
    simp only [verdict, hd, hi, hn, hl, hf, storeBody_lcs, classifyAtPost, frameData, fdByte]
    rfl

theorem pendingRow_of_no_event {s : State} (hx : s.rx = []) : pendingRow s = none := by
  simp [pendingRow, hx]

theorem pendingRow_of_event {s : State} {e : RxEvent} {rest : List RxEvent} (hb : s.busy = true)
    (hd : s.dstate ≠ .idle) (hx : s.rx = e :: rest) : pendingRow s = verdict s e := by
  simp [pendingRow, (requesting_iff s).2 ⟨hb, hd⟩, hx]

/-! ### The step where the block's move is next -/

/-- The block moves in the state itself, but for the agenda. -/
theorem BlockMoves.eq_withAgenda {s s' : State} (hm : BlockMoves s s') : ∃ a, s' = s.withAgenda a := by
  cases hm with
  | alone => exact ⟨s.agenda, rfl⟩
  | turn rest => exact ⟨rest, rfl⟩
  | awaited => exact ⟨s.agenda, rfl⟩

theorem BlockMoves.nextInstr_eq {s s' : State} (hm : BlockMoves s s') : nextInstr s' = nextInstr s := by
  obtain ⟨a, rfl⟩ := hm.eq_withAgenda
  have hv : verdict (s.withAgenda a) = verdict s := verdict_congr ⟨rfl, rfl, rfl, rfl, rfl⟩
  have hp : pendingRow (s.withAgenda a) = pendingRow s := by
    simp only [pendingRow, hv]
    rfl
  simp only [nextInstr, hp]
  rfl

theorem BlockMoves.rx_eq {s s' : State} (hm : BlockMoves s s') : s'.rx = s.rx := by
  obtain ⟨a, rfl⟩ := hm.eq_withAgenda
  rfl

theorem step_of_instr {s s' : State} {i : Instr} (hm : BlockMoves s s') (ha : sourceAnswer s = none)
    (hi : nextInstr s = some i) : step s = exec i s' := by
  simp [step, nextMove_of_blockMoves hm ha, hm.nextInstr_eq, hi]

theorem step_of_quiet {s s' : State} (hm : BlockMoves s s') (ha : sourceAnswer s = none)
    (hi : nextInstr s = none) : step s = .next (quietStep s') := by
  simp [step, nextMove_of_blockMoves hm ha, hm.nextInstr_eq, hi]

theorem step_of_not_busy {s s' : State} (hm : BlockMoves s s') (hb : s.busy = false) : step s = .next s' := by
  have hq : quietStep s' = s' := by
    obtain ⟨a, rfl⟩ := hm.eq_withAgenda
    exact quietStep_of_not_busy hb
  rw [step_of_quiet hm (sourceAnswer_of_not_requesting (by simp [requesting, hb])) (nextInstr_of_not_busy hb), hq]

theorem step_of_started {s s' : State} (hm : BlockMoves s s') (hb : s.busy = true) (hd : s.dstate = .idle)
    (hx : s.xstate = .idle) : step s = exec (decodeOp s.op) s' :=
  step_of_instr hm (sourceAnswer_of_not_requesting (by simp [requesting, hd])) (nextInstr_of_started hb hd hx)

theorem step_of_pendingRow {s s' : State} {r : ClassRow} (hm : BlockMoves s s') (hr : pendingRow s = some r) :
    step s = exec (rowInstr r) s' := by
  obtain ⟨hb, hd, e, rest, hx, -⟩ := pendingRow_eq_some hr
  exact step_of_instr hm (sourceAnswer_of_waiting (by simp [hx])) (by rw [nextInstr_of_running hb hd, hr]; rfl)

/-- A running decoder whose next event meets no row goes on with it, or waits. -/
theorem step_of_no_row {s s' : State} (hm : BlockMoves s s') (ha : sourceAnswer s = none) (hb : s.busy = true)
    (hd : s.dstate ≠ .idle) (hr : pendingRow s = none) : step s = .next (goOn s') := by
  have hq : quietStep s' = goOn s' := by
    obtain ⟨a, rfl⟩ := hm.eq_withAgenda
    exact quietStep_of_running hb hd
  rw [step_of_quiet hm ha (by rw [nextInstr_of_running hb hd, hr]; rfl), hq]

theorem step_of_byte {s s' : State} {b : Byte} {rest : List RxEvent} (hm : BlockMoves s s') (hb : s.busy = true)
    (hd : s.dstate ≠ .idle) (hx : s.rx = .byte b :: rest) (hr : pendingRow s = none) :
    step s = .next (advance b { s' with rx := rest }) := by
  have hx' : s'.rx = .byte b :: rest := hm.rx_eq.trans hx
  have hc : consume s' = { s' with rx := rest } := by simp [consume, hx']
  rw [step_of_no_row hm (sourceAnswer_of_waiting (by simp [hx])) hb hd hr, goOn_byte b rest hx', hc]

theorem step_of_silence {s s' : State} (hm : BlockMoves s s') (hb : s.busy = true) (hd : s.dstate ≠ .idle)
    (hx : s.rx = []) (hs : s.source = .silent) : step s = .next s' := by
  rw [step_of_no_row hm (sourceAnswer_of_silent hs) hb hd (pendingRow_of_no_event hx), goOn_nil (hm.rx_eq.trans hx)]

/-- The state after event number `k` of an endless source has arrived. -/
def State.answered (s : State) (k : Nat) : State :=
  { s with rx := [Config.freeRxEvent k], source := .endless (k + 1) }

theorem step_of_endless {s s' : State} {k : Nat} (hm : BlockMoves s s') (hb : s.busy = true)
    (hd : s.dstate ≠ .idle) (hx : s.rx = []) (hs : s.source = .endless k) : step s = .next (s.answered k) :=
  step_of_answer hm (sourceAnswer_eq_some.2 ⟨hx, (requesting_iff s).2 ⟨hb, hd⟩, k, hs, rfl⟩)

theorem step_of_await_over {s : State} {rest : List Turn} (ha : s.agenda = .await :: rest) (hb : s.busy = false) :
    step s = .next (s.withAgenda rest) := by
  simp [step, nextMove, ha, hb, State.withAgenda]

/-- Settles O15: one rule of the block's move for each clause. -/
theorem stepRunsInstruction : Obligations.StepRunsInstruction := by
  refine ⟨fun s s' hm => ⟨?idle, ?started, ?row, ?byte, ?silent, ?endless⟩, ?await⟩
  case idle => exact step_of_not_busy hm
  case started => exact step_of_started hm
  case row => exact fun r => step_of_pendingRow hm
  case byte => exact fun b rest => step_of_byte hm
  case silent => exact step_of_silence hm
  case endless => exact fun k => step_of_endless hm
  case await => exact fun s rest => step_of_await_over

end Sys2Proof.Machine
end

/-! # The rest of a decode run

`resume s` is what is left of the procedure of 41_decode.md R125 for a decoder that stands in the state `s`. Every event
that the byte-serial machine takes, the rest of the procedure takes too. -/

section
namespace Sys2Proof.Machine

/-! ### The procedure's reads, event by event -/

section Reads
variable (k : List Byte → List RxEvent → RunResult) (b : Byte) (evs : List RxEvent)

theorem rxExact_zero_andThen : (rxExact 0 evs).andThen k = k [] evs := rfl

theorem rxExact_nil_andThen {n : Nat} (hn : 0 < n) : (rxExact n []).andThen k = .hang := by
  obtain ⟨m, rfl⟩ := Nat.exists_eq_add_one_of_ne_zero hn.ne'
  rfl

theorem rxExact_err_andThen {n : Nat} (hn : 0 < n) :
    (rxExact n (.err :: evs)).andThen k = .ended (.err .rx) evs := by
  obtain ⟨m, rfl⟩ := Nat.exists_eq_add_one_of_ne_zero hn.ne'
  rfl

theorem rxExact_succ_byte_andThen (n : Nat) :
    (rxExact (n + 1) (.byte b :: evs)).andThen k = (rxExact n evs).andThen fun bs => k (b :: bs) := by
  simp only [rxExact, rxByte]
  cases rxExact n evs <;> rfl

end Reads

/-! ### The rest of the procedure -/

/-- Steps 3 to 9 when the bytes `taken` of the body, the length checksum first, have been read already. -/
def bodyRun (p : Config.Params) (len : Byte) (taken : List Byte) (evs : List RxEvent) : RunResult :=
  (rxExact (len.toNat + 1 - taken.length) evs).andThen fun g evs =>
    checkBody p len ((taken ++ g).getD 0 0) ((taken ++ g).drop 1) evs

/-- Step 5 and after: the data checksum is next. -/
def dcsRun (p : Config.Params) (fd : List Byte) (evs : List RxEvent) : RunResult :=
  (rxByte evs).andThen fun d rest => if dcsGood fd d = false then .ended (.err .dcs) rest else readPost p fd rest

/-- The body bytes the decoder holds: `IDX` of them, `LCS` first (42_decode_fsm.md R156). -/
def bodyTaken (s : State) : List Byte := (s.lcs :: s.fd).take s.idx.toNat

/-- What is left of `DECODE`'s procedure for the decoder of `s`; an idle decoder requests nothing. -/
def resume (s : State) (evs : List RxEvent) : RunResult :=
  match s.dstate with
  | .idle => .hang
  | .sync => decodeRun s.params evs
  | .hdr => (rxExact (3 - s.idx.toNat) evs).andThen fun h evs => bodyRun s.params (h.getD (2 - s.idx.toNat) 0) [] evs
  | .body => bodyRun s.params s.len (bodyTaken s) evs
  | .dcs => dcsRun s.params (frameData s) evs
  | .post => readPost s.params (frameData s) evs

/-- The decoder's counters are in range (42_decode_fsm.md R161), and `FD` has its capacity. -/
structure DecoderOk (s : State) : Prop where
  fd : s.fd.length = 255
  hdr : s.dstate = .hdr → s.idx.toNat ≤ 2
  body : s.dstate = .body → s.idx.toNat ≤ s.len.toNat

/-- How a run ends at a row of the classification (30_encoding.md R94). -/
def rowEnd (s : State) : ClassRow → RunEnd
  | .row1 => .err .rx
  | .row2 => .err .lcs
  | .row3 => .err .dcs
  | .row4 => .err .postamble
  | .row5 => .ack
  | .row6 => .err .direction
  | .row7 => .err .frameLen
  | .row8 => .data (response s.params (frameData s))

theorem resume_sync {s : State} (h : s.dstate = .sync) (evs : List RxEvent) :
    resume s evs = decodeRun s.params evs := by simp [resume, h]

theorem resume_hdr {s : State} (h : s.dstate = .hdr) (evs : List RxEvent) :
    resume s evs = (rxExact (3 - s.idx.toNat) evs).andThen fun g evs =>
      bodyRun s.params (g.getD (2 - s.idx.toNat) 0) [] evs := by simp [resume, h]

theorem resume_body {s : State} (h : s.dstate = .body) (evs : List RxEvent) :
    resume s evs = bodyRun s.params s.len (bodyTaken s) evs := by simp [resume, h]

theorem resume_dcs {s : State} (h : s.dstate = .dcs) (evs : List RxEvent) :
    resume s evs = dcsRun s.params (frameData s) evs := by simp [resume, h]

theorem resume_post {s : State} (h : s.dstate = .post) (evs : List RxEvent) :
    resume s evs = readPost s.params (frameData s) evs := by simp [resume, h]

theorem resume_congr {s t : State} (h : SameDecoder s t) (hp : t.params = s.params) : resume t = resume s := by
  obtain ⟨hd, hi, hn, hl, hf⟩ := h
  funext evs
  simp only [resume, hd, hi, hn, hl, hf, hp, bodyTaken, frameData]

/-! ### The body -/

theorem bodyRun_nil (p : Config.Params) {len : Byte} {taken : List Byte} (h : taken.length ≤ len.toNat) :
    bodyRun p len taken [] = .hang :=
  rxExact_nil_andThen _ (by omega)

theorem bodyRun_err (p : Config.Params) {len : Byte} {taken : List Byte} (h : taken.length ≤ len.toNat)
    (evs : List RxEvent) : bodyRun p len taken (.err :: evs) = .ended (.err .rx) evs :=
  rxExact_err_andThen _ _ (by omega)

theorem bodyRun_byte (p : Config.Params) {len b : Byte} {taken : List Byte} {evs : List RxEvent}
    (h : taken.length ≤ len.toNat) : bodyRun p len taken (.byte b :: evs) = bodyRun p len (taken ++ [b]) evs := by
  have e1 : len.toNat + 1 - taken.length = len.toNat - taken.length + 1 := by omega
  have e2 : len.toNat + 1 - (taken ++ [b]).length = len.toNat - taken.length := by simp
  simp only [bodyRun, e1, e2, rxExact_succ_byte_andThen, List.append_assoc, List.singleton_append]

theorem bodyRun_whole (p : Config.Params) {len l : Byte} {fd : List Byte} (h : fd.length = len.toNat)
    (evs : List RxEvent) : bodyRun p len (l :: fd) evs = checkBody p len l fd evs := by
  simp [bodyRun, h, rxExact_zero_andThen]

theorem bodyTaken_length_le {s : State} (h : DecoderOk s) (hd : s.dstate = .body) :
    (bodyTaken s).length ≤ s.len.toNat :=
  (List.length_take_le _ _).trans (h.body hd)

theorem storeBody_fd_length (b : Byte) (s : State) : (storeBody b s).fd.length = s.fd.length := by
  rw [storeBody_fd]
  split <;> simp

/-- A stored byte stands behind those held before. -/
theorem storeBody_held {s : State} (b : Byte) (h : s.idx.toNat ≤ s.fd.length) :
    ((storeBody b s).lcs :: (storeBody b s).fd).take (s.idx.toNat + 1) = bodyTaken s ++ [b] := by
  by_cases hi : s.idx = 0
  · simp [bodyTaken, hi]
  · have hn : s.idx.toNat ≠ 0 := fun h0 => hi (BitVec.eq_of_toNat_eq h0)
    obtain ⟨j, hj⟩ := Nat.exists_eq_succ_of_ne_zero hn
    have hlt : j < s.fd.length := by omega
    rw [storeBody_lcs, if_neg hi, storeBody_fd, if_neg hi, bodyTaken, hj]
    simp only [Nat.succ_eq_add_one, Nat.add_sub_cancel, List.take_succ_cons, List.cons_append]
    rw [List.take_add_one, List.getElem?_set_self hlt]
    simp [List.take_set, List.set_eq_of_length_le]

/-! ### The decoder's registers after a byte -/

section Bytes
variable {s : State} {b : Byte}

theorem advance_sync_preamble (hd : s.dstate = .sync) (hb : b = Config.preamble) :
    advance b s = { s with idx := 0, dstate := .hdr } := by simp [advance, hd, hb]

theorem advance_sync_noise (hd : s.dstate = .sync) (hb : b ≠ Config.preamble) : advance b s = s := by
  simp [advance, hd, hb]

theorem advance_hdr_early (hd : s.dstate = .hdr) (hi : s.idx.toNat < 2) :
    advance b s = { s with idx := s.idx + 1 } := by
  have : s.idx = 0 ∨ s.idx = 1 := by bv_omega
  simp only [advance, hd, this, if_true]

theorem advance_hdr_len (hd : s.dstate = .hdr) (hi : s.idx.toNat = 2) :
    advance b s = { s with len := b, idx := 0, dstate := .body } := by
  have : ¬(s.idx = 0 ∨ s.idx = 1) := by bv_omega
  simp only [advance, hd, this, if_false]

theorem advance_body_more (hd : s.dstate = .body) (hi : s.idx.toNat < s.len.toNat) :
    advance b s = { storeBody b s with idx := s.idx + 1 } := by
  simp only [advance, hd, hi, if_true]

theorem advance_body_last (hd : s.dstate = .body) (hi : ¬s.idx.toNat < s.len.toNat) :
    advance b s = { storeBody b s with dstate := if s.len = 0 then .post else .dcs } := by
  simp only [advance, hd, if_neg hi]
  by_cases hl : s.len = 0 <;> simp only [hl, if_true, if_false]

theorem advance_dcs (hd : s.dstate = .dcs) : advance b s = { s with dstate := .post } := by simp [advance, hd]

theorem verdict_body_last (hd : s.dstate = .body) (hi : ¬s.idx.toNat < s.len.toNat) :
    verdict s (.byte b) = if lcsGood s.len (storeBody b s).lcs then none else some .row2 := by
  simp [verdict, hd, hi]

theorem verdict_body_more (hd : s.dstate = .body) (hi : s.idx.toNat < s.len.toNat) :
    verdict s (.byte b) = none := by simp [verdict, hd, hi]

theorem verdict_err (hd : s.dstate ≠ .idle) : verdict s .err = some .row1 := by
  cases h : s.dstate <;> simp_all [verdict]

theorem verdict_dcs (hd : s.dstate = .dcs) :
    verdict s (.byte b) = if dcsGood (frameData s) b then none else some .row3 := by simp [verdict, hd]

theorem verdict_post (hd : s.dstate = .post) : verdict s (.byte b) = some (classifyAtPost b s) := by
  simp [verdict, hd]

end Bytes

/-- No byte makes a running decoder idle. -/
theorem advance_dstate_ne_idle {s : State} (b : Byte) (hd : s.dstate ≠ .idle) : (advance b s).dstate ≠ .idle := by
  unfold advance
  repeat' split
  all_goals simp_all

/-- A byte keeps the counters in range. -/
theorem advance_decoderOk {s : State} (b : Byte) (h : DecoderOk s) (hd : s.dstate ≠ .idle)
    (hv : verdict s (.byte b) = none) : DecoderOk (advance b s) := by
  obtain ⟨hf, hh, hb⟩ := h
  have hfs : (storeBody b s).fd.length = 255 := (storeBody_fd_length b s).trans hf
  cases hds : s.dstate with
  | idle => exact absurd hds hd
  | sync =>
    by_cases hp : b = Config.preamble
    · rw [advance_sync_preamble hds hp]
      exact ⟨hf, fun _ => Nat.zero_le 2, nofun⟩
    · rw [advance_sync_noise hds hp]
      exact ⟨hf, hh, hb⟩
  | hdr =>
    have := hh hds
    by_cases hi : s.idx.toNat < 2
    · rw [advance_hdr_early hds hi]
      refine ⟨hf, fun _ => ?_, fun h => by simp [hds] at h⟩
      bv_omega
    · rw [advance_hdr_len hds (by omega)]
      exact ⟨hf, nofun, fun _ => Nat.zero_le _⟩
  | body =>
    by_cases hi : s.idx.toNat < s.len.toNat
    · rw [advance_body_more hds hi]
      refine ⟨hfs, fun h => by simp [hds] at h, fun _ => ?_⟩
      have := s.len.isLt
      simp only [storeBody_len]
      bv_omega
    · rw [advance_body_last hds hi]
      split <;> exact ⟨hfs, nofun, nofun⟩
  | dcs =>
    rw [advance_dcs hds]
    exact ⟨hf, nofun, nofun⟩
  | post => simp [verdict_post hds] at hv

/-! ### One event of the procedure -/

/-- Without an event the rest of the procedure hangs. -/
theorem resume_nil {s : State} (h : DecoderOk s) : resume s [] = .hang := by
  cases hd : s.dstate with
  | idle => simp [resume, hd]
  | sync => simp [resume_sync hd, decodeRun, rxScan, Read.andThen]
  | hdr =>
    have := h.hdr hd
    rw [resume_hdr hd, rxExact_nil_andThen _ (by omega)]
  | body => rw [resume_body hd, bodyRun_nil _ (bodyTaken_length_le h hd)]
  | dcs => simp [resume_dcs hd, dcsRun, rxByte, Read.andThen]
  | post => simp [resume_post hd, readPost, rxByte, Read.andThen]

/-- A read failure ends the rest of the procedure with `E_RX` at once (41_decode.md R126). -/
theorem resume_err {s : State} (h : DecoderOk s) (hd : s.dstate ≠ .idle) (evs : List RxEvent) :
    resume s (.err :: evs) = .ended (.err .rx) evs := by
  cases hds : s.dstate with
  | idle => exact absurd hds hd
  | sync => simp [resume_sync hds, decodeRun, rxScan, Read.andThen]
  | hdr =>
    have := h.hdr hds
    rw [resume_hdr hds, rxExact_err_andThen _ _ (by omega)]
  | body => rw [resume_body hds, bodyRun_err _ (bodyTaken_length_le h hds)]
  | dcs => simp [resume_dcs hds, dcsRun, rxByte, Read.andThen]
  | post => simp [resume_post hds, readPost, rxByte, Read.andThen]

/-- At the last body byte the rest of the procedure is the length checksum's test and what follows. -/
theorem resume_body_last {s : State} {b : Byte} (h : DecoderOk s) (hd : s.dstate = .body)
    (hi : ¬s.idx.toNat < s.len.toNat) (evs : List RxEvent) :
    resume s (.byte b :: evs) = checkBody s.params s.len (storeBody b s).lcs (frameData (storeBody b s)) evs := by
  have hb := h.body hd
  have hlt := s.len.isLt
  have hidx : s.idx.toNat = s.len.toNat := by omega
  have hfs : (storeBody b s).fd.length = 255 := (storeBody_fd_length b s).trans h.fd
  have hheld := storeBody_held b (show s.idx.toNat ≤ s.fd.length by rw [h.fd]; omega)
  rw [hidx, List.take_succ_cons] at hheld
  rw [resume_body hd, bodyRun_byte _ (bodyTaken_length_le h hd), ← hheld,
    bodyRun_whole _ (by rw [List.length_take, hfs]; omega)]
  simp [frameData]

theorem checkBody_bad {p : Config.Params} {len l : Byte} (fd : List Byte) (evs : List RxEvent)
    (h : lcsGood len l = false) : checkBody p len l fd evs = .ended (.err .lcs) evs := by simp [checkBody, h]

theorem checkBody_good {p : Config.Params} {len l : Byte} (fd : List Byte) (evs : List RxEvent)
    (h : lcsGood len l = true) :
    checkBody p len l fd evs = if len = 0 then readPost p fd evs else dcsRun p fd evs := by
  simp [checkBody, h, dcsRun]

theorem frameData_length {s : State} (hf : s.fd.length = 255) : (frameData s).length = s.len.toNat := by
  have := s.len.isLt
  simp [frameData, hf]
  omega

/-- The classification of a whole frame is the procedure's (41_decode.md R134 to R138). -/
theorem classifyFrame_eq {s : State} (hf : s.fd.length = 255) :
    classifyFrame s.params (frameData s) = rowEnd s (classifyAtPost Config.postamble s) := by
  simp only [classifyFrame, classifyAtPost, frameData_length hf]
  by_cases hl : s.len = 0
  · simp [hl, rowEnd]
  have hpos : 0 < s.len.toNat := by bv_omega
  have hfirst : (frameData s).getD 0 0 = fdByte s 0 := by
    simp [frameData, fdByte, List.getD_eq_getElem?_getD, hpos]
  simp only [hfirst, hl, hpos.ne', ne_eq, not_true_eq_false, if_false]
  by_cases ht : fdByte s 0 = Config.tfiIn <;> by_cases h2 : s.len.toNat < 2 <;>
    simp only [ht, h2, not_true_eq_false, not_false_eq_true, if_true, if_false, rowEnd]

/-- At the postamble the rest of the procedure ends as the classification says (R133). -/
theorem readPost_byte {s : State} (hf : s.fd.length = 255) (b : Byte) (evs : List RxEvent) :
    readPost s.params (frameData s) (.byte b :: evs) = .ended (rowEnd s (classifyAtPost b s)) evs := by
  by_cases hp : b = Config.postamble
  · simp [readPost, rxByte, Read.andThen, hp, classifyFrame_eq hf]
  · simp [readPost, rxByte, Read.andThen, hp, classifyAtPost, rowEnd]

/-- An event that meets a row ends the rest of the procedure as the row says. -/
theorem resume_of_row {s : State} {e : RxEvent} {r : ClassRow} (h : DecoderOk s) (hd : s.dstate ≠ .idle)
    (hv : verdict s e = some r) (evs : List RxEvent) : resume s (e :: evs) = .ended (rowEnd s r) evs := by
  cases e with
  | err =>
    rw [verdict_err hd] at hv
    cases hv
    rw [resume_err h hd, rowEnd]
  | byte b =>
    cases hds : s.dstate with
    | body =>
      by_cases hi : s.idx.toNat < s.len.toNat
      · simp [verdict_body_more hds hi] at hv
      · rw [verdict_body_last hds hi] at hv
        split at hv
        · cases hv
        · cases hv
          rw [resume_body_last h hds hi, checkBody_bad _ _ (Bool.eq_false_of_not_eq_true ‹_›), rowEnd]
    | dcs =>
      rw [verdict_dcs hds] at hv
      split at hv
      · cases hv
      · cases hv
        simp_all [resume_dcs hds, dcsRun, rxByte, Read.andThen, rowEnd]
    | post =>
      rw [verdict_post hds] at hv
      cases hv
      rw [resume_post hds, readPost_byte h.fd]
    | _ => simp [verdict, hds] at hv

/-- A byte that meets no row is taken by the decoder and by the procedure alike. -/
theorem resume_of_byte {s : State} {b : Byte} (h : DecoderOk s) (hd : s.dstate ≠ .idle)
    (hv : verdict s (.byte b) = none) (evs : List RxEvent) : resume s (.byte b :: evs) = resume (advance b s) evs := by
  cases hds : s.dstate with
  | idle => exact absurd hds hd
  | sync =>
    by_cases hp : b = Config.preamble
    · rw [advance_sync_preamble hds hp, resume_sync hds, resume_hdr rfl]
      simp [decodeRun, rxScan, hp, Read.andThen, bodyRun] 
    · rw [advance_sync_noise hds hp, resume_sync hds, resume_sync hds evs]
      simp only [decodeRun, rxScan, if_neg hp]
  | hdr =>
    have hle := h.hdr hds
    by_cases hi : s.idx.toNat < 2
    · have e1 : (s.idx + 1).toNat = s.idx.toNat + 1 := by bv_omega
      have e2 : 3 - s.idx.toNat = 2 - s.idx.toNat + 1 := by omega
      have hlen : ∀ g : List Byte, (b :: g).getD (2 - s.idx.toNat) 0 = g.getD (2 - (s.idx.toNat + 1)) 0 := fun g => by
        rw [show 2 - s.idx.toNat = 2 - (s.idx.toNat + 1) + 1 by omega, List.getD_cons_succ]
      rw [advance_hdr_early hds hi, resume_hdr hds,
        resume_hdr (s := { s with idx := s.idx + 1 }) hds, e2, rxExact_succ_byte_andThen]
      simp only [e1, hlen, Nat.reduceSubDiff]
    · have e1 : s.idx.toNat = 2 := by omega
      rw [advance_hdr_len hds e1, resume_hdr hds, resume_body rfl, e1, rxExact_succ_byte_andThen, rxExact_zero_andThen]
      simp [bodyTaken]
  | body =>
    by_cases hi : s.idx.toNat < s.len.toNat
    · have hlt := s.len.isLt
      have e1 : (s.idx + 1).toNat = s.idx.toNat + 1 := by bv_omega
      have hheld := storeBody_held b (show s.idx.toNat ≤ s.fd.length by rw [h.fd]; omega)
      rw [advance_body_more hds hi, resume_body hds, resume_body (by simpa using hds),
        bodyRun_byte _ (bodyTaken_length_le h hds), ← hheld]
      simp only [bodyTaken, e1, storeBody_params, storeBody_len]
    · rw [verdict_body_last hds hi] at hv
      have hg : lcsGood s.len (storeBody b s).lcs = true := by
        split at hv
        · assumption
        · cases hv
      rw [resume_body_last h hds hi, checkBody_good _ _ hg, advance_body_last hds hi]
      split
      · rw [resume_post rfl]
        simp [frameData]
      · rw [resume_dcs rfl]
        simp [frameData]
  | dcs =>
    rw [verdict_dcs hds] at hv
    rw [advance_dcs hds, resume_dcs hds, resume_post rfl]
    split at hv
    · simp_all [dcsRun, rxByte, Read.andThen, frameData]
    · cases hv
  | post => simp [verdict_post hds] at hv

end Sys2Proof.Machine
end

/-! # What the decoder leaves alone

The operands, the parameters, the streams and the other agents are written by no end of a run and by no byte. -/

section
namespace Sys2Proof.Machine

/-- What of a state is neither the outcome, nor a result register, nor a hidden register of the block. -/
structure Others where
  params : Config.Params
  op : BitVec 2
  cCmd : Byte
  cPlen : Byte
  cPay : List Byte
  rx : List RxEvent
  source : RxSource
  tx : List Byte
  agenda : List Turn
  hostRead : Byte

def State.others (s : State) : Others :=
  ⟨s.params, s.op, s.cCmd, s.cPlen, s.cPay, s.rx, s.source, s.tx, s.agenda, s.hostRead⟩

theorem sameOperands_of_others {s t : State} (h : t.others = s.others) : SameOperands s t :=
  ⟨congrArg Others.op h, congrArg Others.cCmd h, congrArg Others.cPlen h, congrArg Others.cPay h⟩

theorem sameStreams_of_others {s t : State} (h : t.others = s.others) : SameStreams s t :=
  ⟨congrArg Others.rx h, congrArg Others.source h, congrArg Others.tx h⟩

@[simp] theorem complete_others (k : Kind) (e : ErrCode) (s : State) : (complete k e s).others = s.others := rfl

@[simp] theorem latchCommand_others (s : State) : (latchCommand s).others = s.others := rfl

@[simp] theorem countRun_others (s : State) : (countRun s).others = s.others := rfl

@[simp] theorem writeResult_others (r : Response) (s : State) : (writeResult r s).others = s.others := rfl

@[simp] theorem nextRun_others (s : State) : (nextRun s).others = s.others := by
  obtain ⟨-, h⟩ | ⟨-, h⟩ := nextRun_cases s <;> rw [h] <;> rfl

@[simp] theorem endAck_others (s : State) : (endAck s).others = s.others := by
  obtain ⟨-, h⟩ | ⟨-, h⟩ := endAck_cases s <;> simp [h]

@[simp] theorem endData_others (r : Response) (s : State) : (endData r s).others = s.others := by
  obtain ⟨-, -, h⟩ | ⟨-, -, h⟩ | ⟨-, h⟩ := endData_cases r s <;> simp [h]

/-- The end of a decode run as the machine makes it: of `DECODE`, or of an inner run of `SENDWAIT`. -/
def endRun (e : RunEnd) (s : State) : State :=
  match e with
  | .ack => endAck s
  | .data r => endData r s
  | .err c => endErr c s

@[simp] theorem endRun_others (e : RunEnd) (s : State) : (endRun e s).others = s.others := by
  cases e <;> simp [endRun]

/-- A row of the classification ends the run as it says (30_encoding.md R94). -/
theorem rowOutcome_eq_endRun (r : ClassRow) (s : State) : rowOutcome r s = endRun (rowEnd s r) s := by
  cases r <;> rfl

@[simp] theorem rowOutcome_others (r : ClassRow) (s : State) : (rowOutcome r s).others = s.others := by
  rw [rowOutcome_eq_endRun, endRun_others]

/-- The decoder's registers, at other values. -/
def State.withDecoder (s : State) (d : DState) (i : BitVec 9) (n l : Byte) (f : List Byte) : State :=
  { s with dstate := d, idx := i, len := n, lcs := l, fd := f }

theorem storeBody_eq (b : Byte) (s : State) :
    storeBody b s = s.withDecoder s.dstate s.idx s.len (storeBody b s).lcs (storeBody b s).fd := by
  unfold storeBody
  split <;> rfl

/-- A byte that meets no row writes the decoder's registers only (42_decode_fsm.md R154 to R157). -/
theorem advance_eq (b : Byte) (s : State) : ∃ d i n l f, advance b s = s.withDecoder d i n l f := by
  cases h : s.dstate <;> simp only [advance, h]
  case idle | dcs | post => exact ⟨_, _, _, _, _, rfl⟩
  case sync | hdr => split <;> exact ⟨_, _, _, _, _, rfl⟩
  case body =>
    rw [storeBody_eq]
    split <;> [skip; split] <;> exact ⟨_, _, _, _, _, rfl⟩

@[simp] theorem advance_others (b : Byte) (s : State) : (advance b s).others = s.others := by
  obtain ⟨d, i, n, l, f, h⟩ := advance_eq b s
  rw [h]
  rfl

end Sys2Proof.Machine
end

/-! # The rest of an operation

`expect s` is what is left of `DECODE`, or of the loop of `SENDWAIT` (43_dispatch.md R175), for a running decoder in the
state `s`. `Runs` says what such a state keeps of the state `s` in which the operation began, `Finished` how it ends. -/

section
namespace Sys2Proof.Machine

/-! ### The loop without its fuel -/

/-- A decode run leaves fewer events than it got. -/
theorem resume_rest_length {s : State} (h : DecoderOk s) (hd : s.dstate ≠ .idle) {evs rest : List RxEvent} {e : RunEnd}
    (he : resume s evs = .ended e rest) : rest.length < evs.length := by
  induction evs generalizing s with
  | nil => simp [resume_nil h] at he
  | cons ev evs ih =>
    cases hv : verdict s ev with
    | some r =>
      rw [resume_of_row h hd hv] at he
      cases he
      simp
    | none =>
      cases ev with
      | err => simp [verdict_err hd] at hv
      | byte b =>
        rw [resume_of_byte h hd hv] at he
        have := ih (advance_decoderOk b h hd hv) (advance_dstate_ne_idle b hd) he
        simp only [List.length_cons]
        omega

theorem decodeRun_rest_length {p : Config.Params} {evs rest : List RxEvent} {e : RunEnd}
    (he : decodeRun p evs = .ended e rest) : rest.length < evs.length :=
  resume_rest_length (s := { State.reset with params := p, dstate := .sync })
    ⟨List.length_replicate, nofun, nofun⟩ nofun he

/-- More fuel than events is never used up. -/
theorem waitLoop_fuel (p : Config.Params) (w : Byte) {f g : Nat} (frames : Nat) (slot : Option Response)
    {evs : List RxEvent} (hf : evs.length < f) (hg : evs.length < g) :
    waitLoop p w f frames slot evs = waitLoop p w g frames slot evs := by
  induction f generalizing g frames slot evs with
  | zero => omega
  | succ f ih =>
    obtain ⟨g, rfl⟩ : ∃ m, g = m + 1 := ⟨g - 1, by omega⟩
    simp only [waitLoop]
    split
    · rfl
    · cases hr : decodeRun p evs with
      | hang => rfl
      | ended e rest =>
        have := decodeRun_rest_length hr
        cases e with
        | err c => rfl
        | ack => exact ih _ _ (by omega) (by omega)
        | data r =>
          dsimp only
          split
          · rfl
          · exact ih _ _ (by omega) (by omega)

/-- The loop of `SENDWAIT` after `frames` inner runs, `slot` being the last data frame, with fuel enough. -/
def waitFrom (p : Config.Params) (w : Byte) (frames : Nat) (slot : Option Response) (evs : List RxEvent) : WaitResult :=
  waitLoop p w (evs.length + 1) frames slot evs

theorem waitPhase_eq (p : Config.Params) (w : Byte) (evs : List RxEvent) :
    waitPhase p w evs = waitFrom p w 0 none evs := rfl

/-- The loop never ends with an acknowledgement, and with data only when they match and fill the slot (R180, R185). -/
theorem waitLoop_ended {p : Config.Params} {w : Byte} {fuel frames : Nat} {slot slot' : Option Response}
    {evs rest : List RxEvent} {e : RunEnd} (h : waitLoop p w fuel frames slot evs = .ended e slot' rest) :
    e ≠ .ack ∧ ∀ r, e = .data r → slot' = some r ∧ r.cmd = w := by
  induction fuel generalizing frames slot evs with
  | zero => cases h
  | succ fuel ih =>
    simp only [waitLoop] at h
    split at h
    · cases h
      exact ⟨nofun, nofun⟩
    · split at h
      · cases h
      · cases h
        exact ⟨nofun, nofun⟩
      · exact ih h
      · split at h
        · cases h
          exact ⟨nofun, fun r hr => by cases hr; exact ⟨rfl, ‹_›⟩⟩
        · exact ih h

/-! ### What is left of the operation -/

/-- What follows a decode run in the state `s`: the operation's end, or inside the wait the loop's next turn. -/
def afterRun (s : State) (slot : Option Response) : RunResult → WaitResult
  | .hang => .hang slot
  | .ended (.err c) rest => .ended (.err c) slot rest
  | .ended .ack rest =>
    if s.xstate = .wait then waitFrom s.params s.wCmd (s.frames + 1) slot rest else .ended .ack slot rest
  | .ended (.data r) rest =>
    if s.xstate = .wait ∧ r.cmd ≠ s.wCmd then waitFrom s.params s.wCmd (s.frames + 1) (some r) rest
    else .ended (.data r) (some r) rest

/-- What is left of the operation on the events `evs`, `slot` being the last data frame decoded. -/
def expect (s : State) (slot : Option Response) (evs : List RxEvent) : WaitResult := afterRun s slot (resume s evs)

theorem waitFrom_of_bound {p : Config.Params} {frames : Nat} (hb : p.maxFrames = some frames) (w : Byte)
    (slot : Option Response) (evs : List RxEvent) :
    waitFrom p w frames slot evs = .ended (.err .timeout) slot evs := by
  simp [waitFrom, waitLoop, hb]

/-- Below the bound a turn of the loop is a decode run and what follows it. -/
theorem waitFrom_of_turn {s : State} (hb : s.params.maxFrames ≠ some s.frames) (hx : s.xstate = .wait)
    (slot : Option Response) (evs : List RxEvent) :
    waitFrom s.params s.wCmd s.frames slot evs = afterRun s slot (decodeRun s.params evs) := by
  simp only [waitFrom, waitLoop, if_neg hb]
  cases hr : decodeRun s.params evs with
  | hang => rfl
  | ended e rest =>
    have hl := decodeRun_rest_length hr
    cases e with
    | err c => rfl
    | ack =>
      simp only [afterRun, hx, if_true, waitFrom]
      exact waitLoop_fuel _ _ _ _ hl (Nat.lt_succ_self _)
    | data r =>
      by_cases hc : r.cmd = s.wCmd
      · simp only [afterRun, hc, ne_eq, not_true_eq_false, and_false, if_true, if_false]
      · simp only [afterRun, hx, hc, ne_eq, not_false_eq_true, and_self, if_true, if_false, waitFrom]
        exact waitLoop_fuel _ _ _ _ hl (Nat.lt_succ_self _)

/-! ### A running operation and its end -/

/-- The outcome kind of a run's end. -/
def RunEnd.kind : RunEnd → Kind
  | .ack => .ack
  | .data _ => .data
  | .err _ => .err

/-- The error code of a run's end. -/
def RunEnd.code : RunEnd → ErrCode
  | .err c => c
  | _ => .none

/-- The result registers hold the data frame in `slot`, or what they held in `s` if there was none. -/
structure Holds (s : State) (slot : Option Response) (t : State) : Prop where
  same : slot = none → SameResults s t
  delivered : ∀ r, slot = some r → Delivered r t

/-- What the decoder's steps leave alone: `s` is the state the operation began in, `tx` what it has sent. -/
structure Beside (s : State) (tx : List Byte) (t : State) : Prop where
  agenda : t.agenda = []
  params : t.params = s.params
  operands : SameOperands s t
  tx : t.tx = tx

/-- `t` is a state of the operation begun in `s` whose decoder runs, `x` being its `XSTATE`. -/
structure Runs (s : State) (tx : List Byte) (x : XState) (slot : Option Response) (t : State) : Prop where
  beside : Beside s tx t
  busy : t.busy = true
  running : t.dstate ≠ .idle
  ok : DecoderOk t
  xstate : t.xstate = x
  holds : Holds s slot t
  slotless : x ≠ .wait → slot = none

/-- The operation begun in `s` has completed in `t` with the end `e`. -/
structure Finished (s : State) (tx : List Byte) (e : RunEnd) (slot : Option Response) (t : State) : Prop where
  beside : Beside s tx t
  completed : Completed e.kind e.code s t
  holds : Holds s slot t

section
variable {s t : State} {tx : List Byte} {x : XState} {slot : Option Response}

theorem SameOperands.trans {s t u : State} (h : SameOperands s t) (h' : SameOperands t u) : SameOperands s u :=
  ⟨h'.op.trans h.op, h'.cCmd.trans h.cCmd, h'.cPlen.trans h.cPlen, h'.cPay.trans h.cPay⟩

/-- The data frame just written is what the registers hold (41_decode.md R139). -/
theorem writeResult_holds (s : State) (r : Response) (t : State) : Holds s (some r) (writeResult r t) :=
  ⟨nofun, fun r' hr => by cases hr; exact ⟨rfl, rfl, rfl, rfl, by simp⟩⟩

/-- What the registers hold depends on the result registers only. -/
theorem Holds.congr {u : State} (h : Holds s slot t) (hu : SameResults t u) : Holds s slot u := by
  obtain ⟨hv, hc, hs, hl, hd⟩ := hu
  refine ⟨fun hn => ?_, fun r hr => ?_⟩
  · obtain ⟨gv, gc, gs, gl, gd⟩ := h.same hn
    exact ⟨hv.trans gv, hc.trans gc, hs.trans gs, hl.trans gl, hd.trans gd⟩
  · obtain ⟨gv, gc, gs, gl, gd⟩ := h.delivered r hr
    exact ⟨hv.trans gv, hc.trans gc, hs.trans gs, hl.trans gl, hd ▸ gd⟩

/-- The decoder's own registers and the outcome are not among what stays. -/
theorem Beside.congr {u : State} (h : Beside s tx t) (hu : u.others = t.others) : Beside s tx u :=
  ⟨(congrArg Others.agenda hu).trans h.agenda, (congrArg Others.params hu).trans h.params,
    h.operands.trans (sameOperands_of_others hu), (congrArg Others.tx hu).trans h.tx⟩

theorem Beside.consume (h : Beside s tx t) : Beside s tx (consume t) :=
  ⟨h.agenda, h.params, h.operands.trans ⟨rfl, rfl, rfl, rfl⟩, h.tx⟩

/-- A completion finishes the operation. -/
theorem finished_complete (h : Beside s tx t) (e : RunEnd) (hh : Holds s slot t) :
    Finished s tx e slot (complete e.kind e.code t) where
  beside := h.congr rfl
  completed := ⟨rfl, rfl, rfl, rfl, rfl, fun hq => by simp [h.params, hq]⟩
  holds := hh.congr (complete_sameResults _ _ t)

/-! ### One event of the operation -/

/-- In `t` the operation begun in `s` is as the procedure's rest `W` says: it goes on as `W`, or `W` has ended and so has
the operation. -/
inductive GoesOn (s : State) (tx : List Byte) (x : XState) (t : State) (W : List RxEvent → WaitResult) : Prop where
  | running (slot : Option Response) (h : Runs s tx x slot t) (hw : ∀ evs, W evs = expect t slot evs)
  | ended (e : RunEnd) (slot : Option Response) (h : Finished s tx e slot t) (hw : ∀ evs, W evs = .ended e slot evs)

/-- The turn of the loop is the procedure's. -/
theorem nextRun_goesOn (h : Beside s tx t) (hb : t.busy = true) (hf : t.fd.length = 255) (hx : t.xstate = .wait)
    (hh : Holds s slot t) : GoesOn s tx .wait (nextRun t) (waitFrom t.params t.wCmd t.frames slot) := by
  obtain ⟨hm, hn⟩ | ⟨hm, hn⟩ := nextRun_cases t
  · exact .ended (.err .timeout) slot (hn ▸ finished_complete h (.err .timeout) hh) (waitFrom_of_bound hm _ _)
  · rw [hn]
    refine .running slot ⟨h.congr rfl, hb, nofun, ⟨hf, nofun, nofun⟩, hx, hh.congr ⟨rfl, rfl, rfl, rfl, rfl⟩, nofun⟩
      fun evs => ?_
    rw [waitFrom_of_turn hm hx, expect, resume_sync rfl]
    rfl

/-- The end of a run is the procedure's, in `DECODE` and inside the wait. -/
theorem endRun_goesOn (e : RunEnd) (h : Beside s tx t) (hb : t.busy = true) (hf : t.fd.length = 255)
    (hx : t.xstate = x) (hh : Holds s slot t) :
    GoesOn s tx x (endRun e t) fun evs => afterRun t slot (.ended e evs) := by
  subst hx
  cases e with
  | err c => exact .ended (.err c) slot (finished_complete h (.err c) hh) fun _ => rfl
  | ack =>
    obtain ⟨hx, he⟩ | ⟨hx, he⟩ := endAck_cases t
    · have := nextRun_goesOn (h.congr (countRun_others t)) hb hf hx (hh.congr ⟨rfl, rfl, rfl, rfl, rfl⟩)
      simpa [endRun, he, afterRun, hx] using this
    · refine .ended .ack slot ?_ fun evs => by simp [afterRun, hx]
      exact (show endRun .ack t = _ from he) ▸ finished_complete h .ack hh
  | data r =>
    have hr : Beside s tx (writeResult r t) := h.congr (writeResult_others r t)
    have hc : Beside s tx (countRun (writeResult r t)) := hr.congr (countRun_others _)
    have hw := writeResult_holds s r t
    have hcw : Holds s (some r) (countRun (writeResult r t)) := hw.congr ⟨rfl, rfl, rfl, rfl, rfl⟩
    obtain ⟨hx, hm, he⟩ | ⟨hx, hm, he⟩ | ⟨hx, he⟩ := endData_cases r t
    · refine .ended (.data r) (some r) ?_ fun evs => by simp [afterRun, hm]
      exact (show endRun (.data r) t = _ from he) ▸ finished_complete hc (.data r) hcw
    · have := nextRun_goesOn hc hb hf hx hcw
      simpa [endRun, he, afterRun, hx, hm] using this
    · refine .ended (.data r) (some r) ?_ fun evs => by simp [afterRun, hx]
      exact (show endRun (.data r) t = _ from he) ▸ finished_complete hr (.data r) hw

/-- An event that meets a row ends the run, in the machine and in the procedure. -/
theorem Runs.row (h : Runs s tx x slot t) {e : RxEvent} {r : ClassRow} (hv : verdict t e = some r) :
    GoesOn s tx x (rowOutcome r t) fun evs => expect t slot (e :: evs) := by
  simp only [expect, resume_of_row h.ok h.running hv, rowOutcome_eq_endRun]
  exact endRun_goesOn (rowEnd t r) h.beside h.busy h.ok.fd h.xstate h.holds

/-- A byte that meets no row moves the decoder and the procedure alike. -/
theorem Runs.byte (h : Runs s tx x slot t) {b : Byte} (hv : verdict t (.byte b) = none) :
    GoesOn s tx x (advance b t) fun evs => expect t slot (.byte b :: evs) := by
  have hok := advance_decoderOk b h.ok h.running hv
  have hrun := advance_dstate_ne_idle b h.running
  have hres := resume_of_byte h.ok h.running hv
  have hbeside := h.beside.congr (advance_others b t)
  obtain ⟨d, i, n, l, f, ha⟩ := advance_eq b t
  rw [ha] at hok hrun hres hbeside ⊢
  refine .running slot ⟨hbeside, h.busy, hrun, hok, h.xstate, h.holds.congr ⟨rfl, rfl, rfl, rfl, rfl⟩, h.slotless⟩
    fun evs => ?_
  rw [expect, expect, hres]
  rfl

/-- The operation does not look at the events that wait. -/
theorem Runs.consume (h : Runs s tx x slot t) : Runs s tx x slot (consume t) :=
  ⟨h.beside.consume, h.busy, h.running, ⟨h.ok.fd, h.ok.hdr, h.ok.body⟩, h.xstate,
    h.holds.congr ⟨rfl, rfl, rfl, rfl, rfl⟩, h.slotless⟩

theorem expect_consume (t : State) : expect (consume t) = expect t := by
  funext slot evs
  rw [expect, expect, resume_congr (s := t) (t := consume t) ⟨rfl, rfl, rfl, rfl, rfl⟩ rfl]
  rfl

theorem verdict_consume (t : State) : verdict (consume t) = verdict t := verdict_congr ⟨rfl, rfl, rfl, rfl, rfl⟩

/-- A running decoder takes the next event, and the operation goes on as the rest of the procedure does. -/
theorem Runs.take (h : Runs s tx x slot t) {e : RxEvent} {rest : List RxEvent} (hx : t.rx = e :: rest) :
    ∃ t', step t = .next t' ∧ t'.rx = rest ∧ t'.source = t.source ∧
      GoesOn s tx x t' fun evs => expect t slot (e :: evs) := by
  have hm : BlockMoves t t := .alone h.beside.agenda
  have hp := pendingRow_of_event h.busy h.running hx
  have hxc : (Machine.consume t).rx = rest := by simp [hx]
  rw [← expect_consume]
  rw [← verdict_consume] at hp
  cases hv : verdict (Machine.consume t) e with
  | some r =>
    have hs := sameStreams_of_others (rowOutcome_others r (Machine.consume t))
    refine ⟨_, ?_, hs.rx.trans hxc, hs.source, h.consume.row hv⟩
    rw [step_of_pendingRow hm (hp.trans hv), exec_rowInstr, applyRow_of_pending (hp.trans hv)]
  | none =>
    cases e with
    | err => simp [verdict_err h.consume.running] at hv
    | byte b =>
      have hs := sameStreams_of_others (advance_others b (Machine.consume t))
      refine ⟨_, ?_, hs.rx.trans hxc, hs.source, h.consume.byte hv⟩
      rw [step_of_byte hm h.busy h.running hx (hp.trans hv), Machine.consume, hx, List.tail_cons]

end

end Sys2Proof.Machine
end

/-! # Streams that never end

The machine on an endless RX stream, held against the procedure on every beginning of that stream (00_scope.md R11,
42_decode_fsm.md R160). -/

section
namespace Sys2Proof.Machine

/-! ### Runs of steps -/

theorem run_succ_of_step {s t : State} (h : step s = .next t) (k : Nat) :
    Host.Core.run core (k + 1) s = Host.Core.run core k t := by
  have h : core.step s = .next t := h
  simp only [Host.Core.run, h]

/-! ### The beginnings of the stream -/

theorem rxStream_zero {s : State} {k : Nat} (hs : s.source = .endless k) : rxStream s 0 = s.rx := by
  simp [rxStream, hs]

theorem rxStream_congr {s t : State} (hx : t.rx = s.rx) (hs : t.source = s.source) : rxStream t = rxStream s := by
  funext n
  simp only [rxStream, hx, hs]

/-- The first event of the stream is the first that waits. -/
theorem rxStream_take {s t : State} {e : RxEvent} (hx : s.rx = e :: t.rx) (hs : t.source = s.source) (n : Nat) :
    rxStream s n = e :: rxStream t n := by
  unfold rxStream
  rw [hx, hs]
  split <;> rfl

/-- The event the source gives is the stream's next one. -/
theorem rxStream_answered {s : State} {k : Nat} (hx : s.rx = []) (hs : s.source = .endless k) (n : Nat) :
    rxStream s (n + 1) = rxStream (s.answered k) n := by
  simp [rxStream, State.answered, hx, hs, List.range_succ_eq_map, Function.comp_def, Nat.add_assoc, Nat.add_comm 1]

/-! ### The machine follows the procedure -/

/-- After `n` events of the source, numbered from `k`, the machine in `t` is where the procedure is: `F n` is how the
procedure ends on the stream's beginning with `n` events of the source, and `W` what is left of it. -/
structure Follows (s : State) (tx : List Byte) (x : XState) (k : Nat) (F : Nat → WaitResult) (n : Nat)
    (W : List RxEvent → WaitResult) (t : State) : Prop where
  goesOn : GoesOn s tx x t W
  source : t.source = .endless (k + n)
  agrees : ∀ i, F (n + i) = W (rxStream t i)

section
variable {s t : State} {tx : List Byte} {x : XState} {k n : Nat} {F : Nat → WaitResult} {slot : Option Response}
  {W : List RxEvent → WaitResult}

/-- A busy operation waits where the events end. -/
theorem GoesOn.hang_of_busy (h : GoesOn s tx x t W) (hb : t.busy = true) : ∃ slot, W [] = .hang slot := by
  cases h with
  | running slot h hw => exact ⟨slot, by rw [hw, expect, resume_nil h.ok]; rfl⟩
  | ended e slot h => simp [h.completed.notBusy] at hb

/-- The source's answer leaves the operation as it is. -/
theorem Runs.answered (h : Runs s tx x slot t) (k : Nat) : Runs s tx x slot (t.answered k) :=
  ⟨⟨h.beside.agenda, h.beside.params, h.beside.operands.trans ⟨rfl, rfl, rfl, rfl⟩, h.beside.tx⟩, h.busy, h.running,
    ⟨h.ok.fd, h.ok.hdr, h.ok.body⟩, h.xstate, h.holds.congr ⟨rfl, rfl, rfl, rfl, rfl⟩, h.slotless⟩

theorem expect_answered (t : State) (k : Nat) : expect (t.answered k) = expect t := by
  funext slot evs
  rw [expect, expect, resume_congr (s := t) (t := t.answered k) ⟨rfl, rfl, rfl, rfl, rfl⟩ rfl]
  rfl

/-- The source answers where no event waits. -/
theorem Follows.answer (h : Follows s tx x k F n (expect t slot) t) (hr : Runs s tx x slot t) (hx : t.rx = []) :
    step t = .next (t.answered (k + n)) ∧
      Follows s tx x k F (n + 1) (expect t slot) (t.answered (k + n)) := by
  refine ⟨step_of_endless (.alone hr.beside.agenda) hr.busy hr.running hx h.source, ?_, rfl, fun i => ?_⟩
  · exact .running slot (hr.answered _) fun evs => by rw [expect_answered]
  · rw [← rxStream_answered hx h.source, ← h.agrees, Nat.add_assoc, Nat.add_comm 1]

/-- The decoder takes an event that waits. -/
theorem Follows.take (h : Follows s tx x k F n (expect t slot) t) (hr : Runs s tx x slot t) {e : RxEvent}
    {rest : List RxEvent} (hx : t.rx = e :: rest) :
    ∃ t' W', step t = .next t' ∧ t'.rx = rest ∧ Follows s tx x k F n W' t' := by
  obtain ⟨t', hstep, hrx, hsrc, hg⟩ := hr.take hx
  refine ⟨t', _, hstep, hrx, hg, hsrc.trans h.source, fun i => ?_⟩
  rw [h.agrees, rxStream_take (hrx ▸ hx) hsrc]

/-- Every step follows the procedure; while the operation runs, an event of the stream is taken or arrives. -/
theorem Follows.step (h : Follows s tx x k F n W t) :
    ∃ t' n' W', step t = .next t' ∧ Follows s tx x k F n' W' t' ∧
      (t.busy = true → (n' = n ∧ t.rx.length = t'.rx.length + 1) ∨ (n' = n + 1 ∧ t.rx = [] ∧ t'.rx.length = 1)) := by
  obtain ⟨hg, hs, ha⟩ := h
  cases hg with
  | running slot hr hw =>
    obtain rfl : W = expect t slot := funext hw
    have hf : Follows s tx x k F n (expect t slot) t := ⟨.running slot hr hw, hs, ha⟩
    cases hx : t.rx with
    | nil =>
      obtain ⟨hstep, hf'⟩ := hf.answer hr hx
      exact ⟨_, _, _, hstep, hf', fun _ => .inr ⟨rfl, rfl, rfl⟩⟩
    | cons e rest =>
      obtain ⟨t', W', hstep, hrx, hf'⟩ := hf.take hr hx
      exact ⟨t', n, W', hstep, hf', fun _ => .inl ⟨rfl, by rw [hrx, List.length_cons]⟩⟩
  | ended e slot hr hw =>
    have hb := hr.completed.notBusy
    exact ⟨t, n, W, step_of_not_busy (.alone hr.beside.agenda) hb, ⟨.ended e slot hr hw, hs, ha⟩,
      fun h => by simp [hb] at h⟩

/-- So does every run of steps. -/
theorem Follows.run (h : Follows s tx x k F n W t) (j : Nat) :
    ∃ t' n' W', Host.Core.run core j t = .next t' ∧ Follows s tx x k F n' W' t' := by
  induction j generalizing n W t with
  | zero => exact ⟨t, n, W, rfl, h⟩
  | succ j ih =>
    obtain ⟨t₁, n₁, W₁, hstep, h₁, -⟩ := h.step
    rw [run_succ_of_step hstep]
    exact ih h₁

/-- Where the procedure ends on a beginning of the stream, the machine completes. -/
theorem Follows.completes (h : Follows s tx x k F n W t) {N : Nat} (hn : n ≤ N) (hN : ∀ slot, F N ≠ .hang slot) :
    ∃ j t', Host.Core.run core j t = .next t' ∧ t'.busy = false := by
  induction hm : t.rx.length + 2 * (N - n) using Nat.strong_induction_on generalizing n W t with
  | _ m ih =>
  by_cases hb : t.busy = true
  swap
  · exact ⟨0, t, rfl, Bool.eq_false_of_not_eq_true hb⟩
  obtain ⟨t₁, n₁, W₁, hstep, h₁, hmove⟩ := h.step
  have hless : n₁ ≤ N ∧ t₁.rx.length + 2 * (N - n₁) < m := by
    obtain ⟨rfl, hlen⟩ | ⟨rfl, hx, hlen⟩ := hmove hb
    · omega
    · have hne : n ≠ N := by
        rintro rfl
        obtain ⟨slot, hw⟩ := h.goesOn.hang_of_busy hb
        refine hN slot ?_
        rw [← Nat.add_zero n, h.agrees, rxStream_zero h.source, hx, hw]
      simp only [hx, List.length_nil] at hm
      omega
  obtain ⟨j, t', hrun, hb'⟩ := ih _ hless.2 h₁ hless.1 rfl
  exact ⟨j + 1, t', by rw [run_succ_of_step hstep, hrun], hb'⟩

end

/-! ### `DECODE` -/

/-- The data of a run's end. -/
def RunEnd.response : RunEnd → Option Response
  | .data r => some r
  | _ => none

/-- Outside the wait the operation ends as the run does. -/
theorem afterRun_of_plain {s : State} (hx : s.xstate ≠ .wait) (e : RunEnd) (rest : List RxEvent) :
    afterRun s none (.ended e rest) = .ended e e.response rest := by
  cases e <;> simp [afterRun, hx, RunEnd.response]

theorem ended_of_afterRun_plain {s : State} (hx : s.xstate ≠ .wait) {r : RunResult} {e : RunEnd}
    {slot : Option Response} {rest : List RxEvent} (h : afterRun s none r = .ended e slot rest) :
    r = .ended e rest ∧ slot = e.response := by
  cases r with
  | hang => cases h
  | ended e' rest' =>
    rw [afterRun_of_plain hx] at h
    cases h
    exact ⟨rfl, rfl⟩

/-- The procedure of the `DECODE` started in `s`, on the stream's beginning with `n` events of the source. -/
def decodeOn (s : State) (n : Nat) : WaitResult := afterRun s none (decodeRun s.params (rxStream s n))

/-- The first step of `DECODE` begins the procedure (42_decode_fsm.md R151). -/
theorem decode_begins {s : State} {k : Nat} (ha : s.agenda = []) (hb : s.busy = true) (hd : s.dstate = .idle)
    (hx : s.xstate = .idle) (ho : s.op = 2) (hm : Memory.wf s = true) (hs : s.source = .endless k) :
    ∃ t W, step s = .next t ∧ Follows s s.tx .idle k (decodeOn s) 0 W t := by
  obtain ⟨-, -, hf, -⟩ := (memory_wf_iff s).1 hm
  have hr : Runs s s.tx .idle none { s with dstate := .sync } :=
    ⟨⟨ha, rfl, ⟨rfl, rfl, rfl, rfl⟩, rfl⟩, hb, nofun, ⟨hf, nofun, nofun⟩, hx,
      ⟨fun _ => ⟨rfl, rfl, rfl, rfl, rfl⟩, nofun⟩, fun _ => rfl⟩
  refine ⟨{ s with dstate := .sync }, _, ?_, .running none hr fun _ => rfl, hs, fun i => ?_⟩
  · have hop : decodeOp s.op = .decode := by rw [ho]; rfl
    rw [step_of_started (.alone ha) hb hd hx, hop]
    rfl
  · rw [expect, resume_sync rfl, Nat.zero_add]
    rfl

/-- Settles O56: the machine follows the procedure from the first step on. -/
theorem decoderRefinesOnEndlessStream : Obligations.DecoderRefinesOnEndlessStream := by
  intro s k ha hb hd hx ho hm hs
  have hplain : s.xstate ≠ .wait := by simp [hx]
  obtain ⟨s₁, W₁, hstep, h₁⟩ := decode_begins ha hb hd hx ho hm hs
  refine ⟨fun n e rest he => ?_, fun j => ?_⟩
  · have hend : decodeOn s n = .ended e e.response rest := by rw [decodeOn, he, afterRun_of_plain hplain]
    obtain ⟨j, t, hrun, hbt⟩ := h₁.completes (Nat.zero_le n) (by simp [hend])
    exact ⟨j + 1, t, by rw [run_succ_of_step hstep, hrun], hbt⟩
  · cases j with
    | zero => exact ⟨s, rfl, rfl, ⟨rfl, rfl, rfl, rfl⟩, .inl ⟨hb, rfl, rfl, rfl, rfl, rfl⟩⟩
    | succ j =>
      obtain ⟨t, n, W, hrun, hg, hsrc, hagree⟩ := h₁.run j
      rw [run_succ_of_step hstep]
      refine ⟨t, hrun, ?_⟩
      cases hg with
      | running slot h =>
        exact ⟨h.beside.tx, h.beside.operands, .inl ⟨h.busy, h.holds.same (h.slotless nofun)⟩⟩
      | ended e slot h hw =>
        obtain ⟨he, rfl⟩ := ended_of_afterRun_plain hplain ((hagree 0).trans (hw _))
        refine ⟨h.beside.tx, h.beside.operands, .inr ⟨n, 0, e, he, hsrc, ?_⟩⟩
        cases e with
        | ack => exact ⟨h.completed, h.holds.same rfl⟩
        | data r => exact ⟨h.completed, h.holds.delivered r rfl⟩
        | err c => exact ⟨h.completed, h.holds.same rfl⟩

/-! ### `SENDWAIT` -/

/-- `SENDWAIT` has sent its frame and is about to make the loop's first turn (43_dispatch.md R177). -/
def sentState (s : State) : State :=
  { txFrame (encodeFrame s.cCmd (payload s)) (latchCommand s) with xstate := .wait }

/-- A `SENDWAIT` whose frame write is answered `Ok` sends the frame and makes the first turn in one step. -/
theorem execSendwait_ok {s : State} {ans : List TxEvent} (hq : s.params.hasDemux = true) (hp : s.cPlen.toNat ≤ 253)
    (ht : s.txAns = .answer .ok :: ans) : execSendwait s = .next (nextRun (sentState s)) := by
  have hl : ¬Config.maxPayload < (latchCommand s).cPlen.toNat := Nat.not_lt.2 hp
  have hn : nextTxEvent (latchCommand s) = .answer .ok := nextTxEvent_cons _ ans ht
  rw [execSendwait, if_pos hq, sendPhase, if_neg hl, writeFrame_ok_true _ hn]
  rfl

/-- The send phase sends the whole frame, and writes nothing else but the block's hidden registers. -/
theorem sentState_beside {s : State} {ans : List TxEvent} (ha : s.agenda = []) (ht : s.txAns = .answer .ok :: ans) :
    Beside s (s.tx ++ encodeFrame s.cCmd (s.cPay.take s.cPlen.toNat)) (sentState s) where
  agenda := by simp [sentState, ha]
  params := by simp [sentState]
  operands := by constructor <;> simp [sentState]
  tx := by
    have hn : nextTxEvent (latchCommand s) = .answer .ok := nextTxEvent_cons _ ans ht
    simp [sentState, hn, sentCount, payload]

/-- The first step of a `SENDWAIT` whose frame write is answered `Ok` begins the loop (43_dispatch.md R175). -/
theorem sendwait_begins {s : State} {ans : List TxEvent} {k : Nat} (ha : s.agenda = []) (hb : s.busy = true)
    (hd : s.dstate = .idle) (hx : s.xstate = .idle) (ho : s.op = 3) (hq : s.params.hasDemux = true)
    (hp : s.cPlen.toNat ≤ 253) (ht : s.txAns = .answer .ok :: ans) (hm : Memory.wf s = true)
    (hs : s.source = .endless k) :
    ∃ t W, step s = .next t ∧
      Follows s (s.tx ++ encodeFrame s.cCmd (s.cPay.take s.cPlen.toNat)) .wait k
        (fun n => waitPhase s.params s.cCmd (rxStream s n)) 0 W t := by
  obtain ⟨-, -, hf, -⟩ := (memory_wf_iff s).1 hm
  have hop : decodeOp s.op = .sendwait := by rw [ho]; rfl
  have hsame : SameResults s (sentState s) := by constructor <;> simp [sentState]
  have hgo := nextRun_goesOn (slot := none) (sentState_beside ha ht) (by simp [sentState, hb])
    (by simp [sentState, hf]) rfl ⟨fun _ => hsame, nofun⟩
  have hstr := sameStreams_of_others (nextRun_others (sentState s))
  have hrx : (nextRun (sentState s)).rx = s.rx := hstr.rx.trans (by simp [sentState])
  have hsrc : (nextRun (sentState s)).source = s.source := hstr.source.trans (by simp [sentState])
  refine ⟨nextRun (sentState s), _, ?_, hgo, hsrc.trans hs, fun i => ?_⟩
  · rw [step_of_started (.alone ha) hb hd hx, hop]
    exact execSendwait_ok hq hp ht
  · rw [rxStream_congr hrx hsrc, waitPhase_eq, Nat.zero_add]
    simp [sentState]

/-- Settles O57: the machine follows the loop from the step that sends the frame on. -/
theorem sendwaitRefinesOnEndlessStream : Obligations.SendwaitRefinesOnEndlessStream := by
  intro s ans k ha hb hd hx ho hq hp ht hm hs
  obtain ⟨s₁, W₁, hstep, h₁⟩ := sendwait_begins ha hb hd hx ho hq hp ht hm hs
  refine ⟨fun n e slot rest he => ?_, fun j => ?_⟩
  · obtain ⟨j, t, hrun, hbt⟩ := h₁.completes (Nat.zero_le n) (by simp [he])
    exact ⟨j + 1, t, by rw [run_succ_of_step hstep, hrun], hbt⟩
  · obtain ⟨t, n, W, hrun, hg, hsrc, hagree⟩ := h₁.run j
    rw [Nat.add_comm 1, run_succ_of_step hstep]
    refine ⟨t, hrun, ?_⟩
    cases hg with
    | running slot h => exact ⟨h.beside.tx, h.beside.operands, .inl h.busy⟩
    | ended e slot h hw =>
      have he := (hagree 0).trans (hw _)
      obtain ⟨hack, hdata⟩ := waitLoop_ended he
      refine ⟨h.beside.tx, h.beside.operands, .inr ⟨n, 0, e, slot, he, hsrc, h.holds.same, h.holds.delivered, ?_⟩⟩
      cases e with
      | ack => exact hack rfl
      | data r => exact ⟨h.completed, hdata r rfl⟩
      | err c => exact h.completed

end Sys2Proof.Machine
end

/-! # The streams only move forward

What every move does to the two streams and to the parameters (20_memory.md R50 to R57). -/

section
namespace Sys2Proof.Machine

/-- From `s` to `t` the RX stream and the parameters stay, and the TX stream grows at its end. -/
structure OnlySends (s t : State) : Prop where
  rx : t.rx = s.rx
  source : t.source = s.source
  tx : s.tx <+: t.tx
  params : t.params = s.params

section
variable {s t u : State}

theorem OnlySends.refl (s : State) : OnlySends s s := ⟨rfl, rfl, List.prefix_rfl, rfl⟩

theorem OnlySends.trans (h : OnlySends s t) (h' : OnlySends t u) : OnlySends s u :=
  ⟨h'.rx.trans h.rx, h'.source.trans h.source, h.tx.trans h'.tx, h'.params.trans h.params⟩

theorem onlySends_of_others (h : t.others = s.others) : OnlySends s t := by
  have htx : t.tx = s.tx := congrArg Others.tx h
  exact ⟨congrArg Others.rx h, congrArg Others.source h, htx ▸ List.prefix_rfl, congrArg Others.params h⟩

theorem txFrame_onlySends (f : List Byte) (s : State) : OnlySends s (txFrame f s) :=
  ⟨txFrame_rx s f, txFrame_source s f, txFrame_tx s f ▸ List.prefix_append _ _, txFrame_params s f⟩

theorem resetInput_onlySends (s : State) : OnlySends s (resetInput s) := ⟨rfl, rfl, List.prefix_rfl, rfl⟩

theorem writeFrame_onlySends (w : Bool) (f : List Byte) (s : State) : OnlySends s (writeFrame w f s) := by
  have ht := txFrame_onlySends f s
  obtain ⟨-, -, h⟩ | ⟨-, -, h⟩ | ⟨n, -, h⟩ | ⟨n, -, h⟩ := writeFrame_cases w f s <;> rw [h]
  · exact ht.trans (onlySends_of_others (nextRun_others { txFrame f s with xstate := .wait }))
  · exact ht.trans (onlySends_of_others rfl)
  · exact ht.trans (onlySends_of_others rfl)
  · exact ht.trans (resetInput_onlySends _)

theorem sendPhase_onlySends (s : State) : OnlySends s (sendPhase s) := by
  unfold sendPhase
  split
  · exact onlySends_of_others rfl
  · exact writeFrame_onlySends ..

/-- A move of the block takes no event, or the first one for a running decoder. -/
theorem BlockStep.onlySends (h : BlockStep s t) :
    OnlySends s t ∨ (OnlySends (consume s) t ∧ s.busy = true ∧ s.dstate ≠ .idle) := by
  cases h with
  | still => exact .inl (.refl s)
  | nop | overlong | decode | badOp => exact .inl (onlySends_of_others rfl)
  | encode => exact .inl (writeFrame_onlySends ..)
  | sendwait => exact .inl ((onlySends_of_others (latchCommand_others s)).trans (sendPhase_onlySends (latchCommand s)))
  | sending => exact .inl (sendPhase_onlySends s)
  | turning => exact .inl (onlySends_of_others (nextRun_others s))
  | row r hr =>
    obtain ⟨hb, hd, -⟩ := pendingRow_eq_some hr
    exact .inr ⟨onlySends_of_others (rowOutcome_others r (consume s)), hb, hd⟩
  | byte b rest hb hd => exact .inr ⟨onlySends_of_others (advance_others b (consume s)), hb, hd⟩

theorem operandWrite_next {s t u : State} (h : operandWrite t s = .next u) : u = t := by
  unfold operandWrite at h
  split at h <;> cases h
  rfl

/-- A host act moves neither stream. -/
theorem hostStep_onlySends (a : HostAct) (h : hostStep a s = .next t) : OnlySends s t := by
  cases a with
  | writeOp | writeCmd | writePlen | writePay =>
    rw [operandWrite_next h]
    exact ⟨rfl, rfl, List.prefix_rfl, rfl⟩
  | start =>
    cases h
    unfold hostStart
    split <;> [skip; split] <;> exact onlySends_of_others rfl
  | read r =>
    cases h
    unfold hostReadReg
    split <;> exact ⟨rfl, rfl, List.prefix_rfl, rfl⟩
  | reset =>
    cases h
    exact resetInput_onlySends s

theorem withAgenda_onlySends (s : State) (a : List Turn) : OnlySends s (s.withAgenda a) :=
  ⟨rfl, rfl, List.prefix_rfl, rfl⟩

end

/-- All that a step can do to the streams: send, take the first event for a running decoder, let an event arrive, or let
the source answer a request. -/
inductive StreamMove (s t : State) : Prop where
  | sends (h : OnlySends s t)
  | takes (h : OnlySends (consume s) t) (hb : s.busy = true) (hd : s.dstate ≠ .idle)
  | arrives (e : RxEvent) (h : OnlySends (arrive e s) t)
  | answers (k : Nat) (hs : s.source = .endless k) (hx : s.rx = []) (hb : s.busy = true) (hd : s.dstate ≠ .idle)
      (h : t = s.answered k)

theorem streamMove_of_step {s t : State} (h : step s = .next t) : StreamMove s t := by
  obtain ⟨s', hm, ha, hn⟩ | ⟨s', u, hm, ha, hn⟩ | ⟨rest, -, -, hn⟩ | ⟨a, rest, -, hn⟩ | ⟨e, rest, -, hn⟩ :=
    nextMove_cases s
  · obtain hm' | ⟨v, hv, hmove⟩ := step_cases h
    · simp [hn] at hm'
    obtain rfl : s' = v := by simpa [hn] using hv
    obtain ⟨a, rfl⟩ := hm.eq_withAgenda
    obtain hs | ⟨hs, hb, hd⟩ := (blockStep_of_move hmove).onlySends
    · exact .sends ((withAgenda_onlySends s a).trans hs)
    · exact .takes ((withAgenda_onlySends (consume s) a).trans hs) hb hd
  · obtain rfl : u = t := by simpa [step, hn] using h
    obtain ⟨hx, hq, k, hs, rfl⟩ := sourceAnswer_eq_some.1 ha
    obtain ⟨hb, hd⟩ := (requesting_iff s).1 hq
    exact .answers k hs hx hb hd rfl
  · obtain rfl : s.withAgenda rest = t := by simpa [step, hn, State.withAgenda] using h
    exact .sends (withAgenda_onlySends s rest)
  · have ht : hostStep a (s.withAgenda rest) = .next t := by simpa [step, hn, State.withAgenda] using h
    exact .sends ((withAgenda_onlySends s rest).trans (hostStep_onlySends a ht))
  · obtain rfl : arrive e (s.withAgenda rest) = t := by simpa [step, hn, State.withAgenda] using h
    exact .arrives e (withAgenda_onlySends (arrive e s) rest)

/-- Settles O5: by the cases of what a step can do to the streams. -/
theorem streamsOnlyMoveForward : Obligations.StreamsOnlyMoveForward := by
  intro s t h
  cases streamMove_of_step h with
  | sends h => exact ⟨.inl h.rx, .inl h.source, h.tx, h.params⟩
  | takes h hb hd => exact ⟨.inr (.inl ⟨h.rx, hb, hd⟩), .inl h.source, h.tx, h.params⟩
  | arrives e h => exact ⟨.inr (.inr ⟨e, h.rx⟩), .inl h.source, h.tx, h.params⟩
  | answers k hs hx hb hd h =>
    subst h
    exact ⟨.inr (.inr ⟨Config.freeRxEvent k, by rw [hx]; rfl⟩), .inr ⟨k, hs, rfl, hx, hb, hd, rfl⟩, List.prefix_rfl,
      rfl⟩

end Sys2Proof.Machine
end

/-! # What a step can do

Every step that answers is a move of one agent (00_scope.md R10, log entry 2). -/

section
namespace Sys2Proof.Machine

/-- The moves of a step that answers, with the state each gives. -/
inductive Moved (s : State) : State → Prop where
  | block (a : List Turn) {t : State} (h : BlockStep (s.withAgenda a) t) : Moved s t
  | answer (k : Nat) : Moved s (s.answered k)
  | awaited (rest : List Turn) : Moved s (s.withAgenda rest)
  | arrival (e : RxEvent) (rest : List Turn) : Moved s (arrive e (s.withAgenda rest))
  | host (a : HostAct) (rest : List Turn) (ha : s.agenda = .host a :: rest) {t : State}
      (h : hostStep a (s.withAgenda rest) = .next t) : Moved s t

theorem moved_of_step {s t : State} (h : step s = .next t) : Moved s t := by
  obtain ⟨s', hm, -, hn⟩ | ⟨s', u, -, ha, hn⟩ | ⟨rest, -, -, hn⟩ | ⟨a, rest, ha, hn⟩ | ⟨e, rest, -, hn⟩ :=
    nextMove_cases s
  · obtain hm' | ⟨v, hv, hmove⟩ := step_cases h
    · simp [hn] at hm'
    obtain rfl : s' = v := by simpa [hn] using hv
    obtain ⟨a, rfl⟩ := hm.eq_withAgenda
    exact .block a (blockStep_of_move hmove)
  · obtain rfl : u = t := by simpa [step, hn] using h
    obtain ⟨-, -, k, -, rfl⟩ := sourceAnswer_eq_some.1 ha
    exact .answer k
  · obtain rfl : s.withAgenda rest = t := by simpa [step, hn, State.withAgenda] using h
    exact .awaited rest
  · exact .host a rest ha (by simpa [step, hn, State.withAgenda] using h)
  · obtain rfl : arrive e (s.withAgenda rest) = t := by simpa [step, hn, State.withAgenda] using h
    exact .arrival e rest

theorem step_of_host {s : State} {a : HostAct} {rest : List Turn} (ha : s.agenda = .host a :: rest) :
    step s = hostStep a (s.withAgenda rest) := by
  simp [step, nextMove, ha, State.withAgenda]

end Sys2Proof.Machine
end

/-! # Who writes the operands and the results

The block writes no operand register (10_state.md R21), and a result register only as the outcome of row 8 of the
classification (10_state.md R30, R31). -/

section
namespace Sys2Proof.Machine

/-- The operand and the result registers of a state. -/
structure HostData where
  op : BitVec 2
  cCmd : Byte
  cPlen : Byte
  cPay : List Byte
  rValid : Bool
  rCmd : Byte
  rStatus : Byte
  rLen : Byte
  rData : List Byte

def State.hostData (s : State) : HostData :=
  ⟨s.op, s.cCmd, s.cPlen, s.cPay, s.rValid, s.rCmd, s.rStatus, s.rLen, s.rData⟩

theorem sameOperands_of_hostData {s t : State} (h : t.hostData = s.hostData) : SameOperands s t :=
  ⟨congrArg HostData.op h, congrArg HostData.cCmd h, congrArg HostData.cPlen h, congrArg HostData.cPay h⟩

theorem sameResults_of_hostData {s t : State} (h : t.hostData = s.hostData) : SameResults s t :=
  ⟨congrArg HostData.rValid h, congrArg HostData.rCmd h, congrArg HostData.rStatus h, congrArg HostData.rLen h,
    congrArg HostData.rData h⟩

section
variable {s t : State}

/-! ### The shared operations -/

@[simp] theorem withAgenda_hostData (s : State) (a : List Turn) : (s.withAgenda a).hostData = s.hostData := rfl

@[simp] theorem consume_hostData (s : State) : (consume s).hostData = s.hostData := rfl

@[simp] theorem countRun_hostData (s : State) : (countRun s).hostData = s.hostData := rfl

@[simp] theorem latchCommand_hostData (s : State) : (latchCommand s).hostData = s.hostData := rfl

@[simp] theorem complete_hostData (k : Kind) (e : ErrCode) (s : State) : (complete k e s).hostData = s.hostData := rfl

@[simp] theorem nextRun_hostData (s : State) : (nextRun s).hostData = s.hostData := by
  obtain ⟨-, h⟩ | ⟨-, h⟩ := nextRun_cases s <;> rw [h] <;> rfl

@[simp] theorem endAck_hostData (s : State) : (endAck s).hostData = s.hostData := by
  obtain ⟨-, h⟩ | ⟨-, h⟩ := endAck_cases s <;> simp [h]

@[simp] theorem advance_hostData (b : Byte) (s : State) : (advance b s).hostData = s.hostData := by
  obtain ⟨d, i, n, l, f, h⟩ := advance_eq b s
  rw [h]
  rfl

/-- Only row 8 of the classification writes the result registers. -/
theorem rowOutcome_hostData {r : ClassRow} (hr : r ≠ .row8) (s : State) : (rowOutcome r s).hostData = s.hostData := by
  cases r with
  | row8 => exact absurd rfl hr
  | row5 => exact endAck_hostData s
  | row1 | row2 | row3 | row4 | row6 | row7 => rfl

@[simp] theorem txFrame_hostData (f : List Byte) (s : State) : (txFrame f s).hostData = s.hostData := by
  simp [State.hostData]

/-- The sink's free answer is no cut: a reset strikes during a write only where the state lists it. -/
theorem nextTxEvent_ne_cut (hc : ∀ n rest, s.txAns ≠ .cut n :: rest) (n : Nat) : nextTxEvent s ≠ .cut n := by
  cases h : s.txAns with
  | nil => simp [nextTxEvent, h]
  | cons e rest =>
    rw [nextTxEvent_cons e rest h]
    rintro rfl
    exact hc n rest h

theorem writeFrame_hostData (w : Bool) (f : List Byte) (hc : ∀ n rest, s.txAns ≠ .cut n :: rest) :
    (writeFrame w f s).hostData = s.hostData := by
  obtain ⟨-, -, h⟩ | ⟨-, -, h⟩ | ⟨n, -, h⟩ | ⟨n, hn, -⟩ := writeFrame_cases w f s
  · rw [h, nextRun_hostData]
    exact txFrame_hostData f s
  · rw [h, complete_hostData, txFrame_hostData]
  · rw [h, complete_hostData, txFrame_hostData]
  · exact absurd hn (nextTxEvent_ne_cut hc n)

theorem sendPhase_hostData (hc : ∀ n rest, s.txAns ≠ .cut n :: rest) : (sendPhase s).hostData = s.hostData := by
  unfold sendPhase
  split
  · rfl
  · exact writeFrame_hostData _ _ hc

/-! ### The moves -/

/-- A move of the block that is cut by no reset writes no operand, and a result register only at row 8. -/
theorem BlockStep.hostData_or_row8 (h : BlockStep s t) (hc : ∀ n rest, s.txAns ≠ .cut n :: rest) :
    t.hostData = s.hostData ∨ (pendingRow s = some .row8 ∧ t = rowOutcome .row8 (consume s)) := by
  cases h with
  | still | nop | overlong | badOp | decode => exact .inl rfl
  | encode => exact .inl (writeFrame_hostData _ _ hc)
  | sendwait => exact .inl (sendPhase_hostData (s := latchCommand s) hc)
  | sending => exact .inl (sendPhase_hostData hc)
  | turning => exact .inl (nextRun_hostData s)
  | byte b => exact .inl (advance_hostData b (consume s))
  | row r hr =>
    by_cases h8 : r = .row8
    · exact .inr ⟨h8 ▸ hr, by rw [h8]⟩
    · exact .inl (rowOutcome_hostData h8 (consume s))

/-- Only the postamble can meet row 8 (42_decode_fsm.md R158). -/
theorem dstate_of_verdict_row8 {e : RxEvent} (h : verdict s e = some .row8) : s.dstate = .post := by
  cases hd : s.dstate with
  | post => rfl
  | idle | sync | hdr | body | dcs => cases e <;> simp [verdict, hd] at h

/-- Outside the wait row 8 ends the operation with `DATA` (41_decode.md R139). -/
theorem rowOutcome_row8_rKind (hx : s.xstate ≠ .wait) : (rowOutcome .row8 s).rKind = .data := by
  obtain ⟨h, -⟩ | ⟨h, -⟩ | ⟨-, h⟩ := endData_cases (response s.params (frameData s)) s
  · exact absurd h hx
  · exact absurd h hx
  · exact congrArg State.rKind h

/-- No host act but the reset input writes a result register. -/
theorem hostStep_sameResults {a : HostAct} (ha : a ≠ .reset) (h : hostStep a s = .next t) : SameResults s t := by
  cases a with
  | writeOp | writeCmd | writePlen | writePay =>
    rw [operandWrite_next h]
    exact ⟨rfl, rfl, rfl, rfl, rfl⟩
  | start =>
    cases h
    unfold hostStart
    split <;> [skip; split] <;> exact sameResults_of_hostData rfl
  | read r =>
    cases h
    unfold hostReadReg
    split <;> exact sameResults_of_hostData rfl
  | reset => exact absurd rfl ha

end

/-- Settles O6: the block's moves, row 8 included, and the RX source write no operand register. -/
theorem operandsWrittenOnlyByHost : Obligations.OperandsWrittenOnlyByHost := by
  intro s t hhost hcut h
  cases moved_of_step h with
  | block a hb =>
    obtain hsame | ⟨-, rfl⟩ := hb.hostData_or_row8 hcut
    · exact sameOperands_of_hostData hsame
    · have hrow := rowOutcome_others .row8 (consume (s.withAgenda a))
      obtain ⟨hop, hcmd, hplen, hpay⟩ := sameOperands_of_others hrow
      exact ⟨hop, hcmd, hplen, hpay⟩
  | answer | awaited | arrival => exact sameOperands_of_hostData rfl
  | host a rest ha => exact absurd ha (hhost a rest)

/-- Settles O7: a result register is written by row 8 only, which is met at the postamble and outside the wait ends with
`DATA`. -/
theorem resultsWrittenOnlyByData : Obligations.ResultsWrittenOnlyByData := by
  intro s t hreset hcut h hno
  cases moved_of_step h with
  | block a hb =>
    obtain hsame | ⟨hr, rfl⟩ := hb.hostData_or_row8 hcut
    · exact sameResults_of_hostData hsame
    · obtain ⟨-, -, e, rest, -, hv⟩ := pendingRow_eq_some hr
      obtain hd | ⟨hx, hk⟩ := hno
      · exact absurd (dstate_of_verdict_row8 hv) hd
      · exact (hk (rowOutcome_row8_rKind hx)).elim
  | answer | awaited | arrival => exact sameResults_of_hostData rfl
  | host a rest ha hh =>
    have hne : a ≠ .reset := by
      rintro rfl
      exact hreset rest ha
    obtain ⟨hvalid, hcmd, hstatus, hlen, hdata⟩ := hostStep_sameResults hne hh
    exact ⟨hvalid, hcmd, hstatus, hlen, hdata⟩

end Sys2Proof.Machine
end

/-! # Reset and the start of an operation

The state after reset (10_state.md R38), the start step (R23) and the reserved operation (R22). -/

section
namespace Sys2Proof.Machine

/-- Settles O1: each value stands in the definition of `State.reset`. -/
theorem resetStateHasSpecifiedValues : Obligations.ResetStateHasSpecifiedValues := by
  unfold Obligations.ResetStateHasSpecifiedValues
  constructor <;> rfl

/-- Settles O3: the block is idle and no operation has completed. -/
theorem resetMeetsInvariant : Obligations.ResetMeetsInvariant where
  mem := reset_memory_wf
  busyDone := by decide
  idle _ := ⟨rfl, rfl⟩
  cleared := nofun
  errKind := by decide
  dataValid := nofun
  resultLen := by decide
  fresh _ := ⟨rfl, rfl, rfl⟩
  noSend := nofun
  plainRun h := absurd rfl h
  waitRun := nofun
  bound _ _ := nofun
  hdr := nofun
  body := nofun
  dcs := nofun
  post := nofun

/-! ### The start step -/

theorem decodeOp_eq_sendwait_iff (op : BitVec 2) : decodeOp op = .sendwait ↔ op = 3 := by
  revert op
  decide

section
variable {s : State}

theorem hostStart_of_busy (hb : s.busy = true) : hostStart s = s := by simp [hostStart, hb]

theorem hostStart_of_idle (hb : s.busy = false) (ho : ¬(s.op = 3 ∧ s.params.hasDemux = false)) :
    hostStart s = startStep s := by
  rw [← decodeOp_eq_sendwait_iff] at ho
  simp only [hostStart, hb, if_neg ho, Bool.false_eq_true, if_false]

theorem hostStart_of_reserved (hb : s.busy = false) (ho : s.op = 3) (hq : s.params.hasDemux = false) :
    hostStart s = complete .err .badOp (startStep s) := by
  have hr := And.intro ((decodeOp_eq_sendwait_iff s.op).2 ho) hq
  simp only [hostStart, hb, if_pos hr, Bool.false_eq_true, if_false, raise_eq]

theorem step_of_start {rest : List Turn} (ha : s.agenda = .host .start :: rest) :
    step s = .next (hostStart (s.withAgenda rest)) := step_of_host ha

end

/-- Settles O9: the start step by the two cases of `BUSY`; the step after it is the block's rule for a started operation. -/
theorem startBeginsOperation : Obligations.StartBeginsOperation := by
  refine ⟨fun s rest ha hb ho => ?_, fun s s' hm hb hd hx => step_of_started hm hb hd hx, fun s rest ha hb => ?_⟩
  · rw [step_of_start ha, hostStart_of_idle (s := s.withAgenda rest) hb ho]
    rfl
  · rw [step_of_start ha, hostStart_of_busy (s := s.withAgenda rest) hb]
    rfl

/-- Settles O10: the reserved start is the start step followed by the completion with `E_BADOP`. -/
theorem reservedOpRaisesBadOp : Obligations.ReservedOpRaisesBadOp := by
  refine ⟨⟨rfl, rfl, rfl, rfl⟩, fun s rest ha hb ho hq => ?_⟩
  refine ⟨complete .err .badOp (startStep (s.withAgenda rest)), ?_, ?_, ?_, ?_, ?_⟩
  · rw [step_of_start ha, hostStart_of_reserved (s := s.withAgenda rest) hb ho hq]
  · exact ⟨rfl, rfl, rfl, rfl, rfl, fun h => by simp [h] at hq⟩
  · exact sameOperands_of_hostData rfl
  · exact sameResults_of_hostData rfl
  · exact ⟨rfl, rfl, rfl⟩

end Sys2Proof.Machine
end

/-! # Operations and rows that only complete

A completion keeps the operands, the result registers, the streams and the other agents (10_state.md R25, R30). -/

section
namespace Sys2Proof.Machine

/-- An instruction whose meaning is the completion with kind `k` and code `e` changes nothing that the host or another agent
sees but the outcome. -/
theorem completes_of_exec {i : Instr} {k : Kind} {e : ErrCode} {s : State} (h : exec i s = .next (complete k e s)) :
    ∃ t, exec i s = .next t ∧ Completed k e s t ∧ SameOperands s t ∧ SameResults s t ∧ SameStreams s t ∧ SameAgents s t :=
  ⟨_, h, complete_completed k e s, complete_sameOperands k e s, complete_sameResults k e s, complete_sameStreams k e s,
    complete_sameAgents k e s⟩

/-- Without the demultiplexer its registers, which then do not exist, are written by no completion (log entry 3). -/
theorem complete_sameDemux {s : State} (k : Kind) (e : ErrCode) (hq : s.params.hasDemux = false) :
    SameDemux s (complete k e s) := by
  constructor <;> simp [hq]

/-- Settles O19: `NOP` is the completion with `NONE`. -/
theorem nopCompletes : Obligations.NopCompletes := fun s =>
  ⟨complete .none .none s, rfl, complete_completed .., complete_sameOperands .., complete_sameResults ..,
    complete_sameStreams .., complete_sameAgents .., rfl⟩

/-- Settles O23: without the demultiplexer `SENDWAIT` is the completion with `E_BADOP`. -/
theorem sendwaitWithoutDemux : Obligations.SendwaitWithoutDemux := by
  intro s hq
  have hexec : exec .sendwait s = .next (complete .err .badOp s) := by simp [exec, execSendwait, hq]
  exact ⟨_, hexec, complete_completed .., complete_sameOperands .., complete_sameResults .., complete_sameStreams ..,
    complete_sameDemux _ _ hq, complete_sameAgents ..⟩

/-- Settles O44: each of the rows is a completion. -/
theorem kindsComplete : Obligations.KindsComplete := fun _ =>
  ⟨completes_of_exec rfl, completes_of_exec rfl, fun _ _ => completes_of_exec rfl, completes_of_exec rfl⟩

end Sys2Proof.Machine
end

/-! # The invariant

Every step keeps the invariant `Inv`: by the moves of a step, and for a move of the block by its cases. -/

section
namespace Sys2Proof.Machine

variable {s t : State}

/-! ### Completions -/

/-- What a completion needs of a state to give one that meets the invariant: the part of the invariant that it neither
writes nor frees. -/
structure MayComplete (s : State) : Prop where
  mem : Memory.wf s = true
  resultLen : s.rLen.toNat ≤ 253
  fresh : s.rValid = false → s.rCmd = 0 ∧ s.rStatus = 0 ∧ s.rLen = 0
  /-- without the demultiplexer no completion writes `XSTATE` (log entry 3) -/
  demux : s.params.hasDemux = false → s.xstate = .idle

theorem MayComplete.complete {k : Kind} {e : ErrCode} (h : MayComplete s) (he : e = .none ↔ k ≠ .err)
    (hv : k = .data → s.rValid = true) : Inv (complete k e s) where
  mem := complete_memory_wf k e h.mem
  busyDone := by simp
  idle _ := by
    cases hq : s.params.hasDemux <;> simp [hq, h.demux]
  cleared := nofun
  errKind := he
  dataValid := hv
  resultLen := h.resultLen
  fresh := h.fresh
  noSend := by
    cases hq : s.params.hasDemux <;> simp [hq, h.demux]
  plainRun hd := absurd rfl hd
  waitRun hx := by
    cases hq : s.params.hasDemux <;> simp [hq, h.demux] at hx
  bound m _ hx := by
    cases hq : s.params.hasDemux <;> simp [hq, h.demux] at hx
  hdr := nofun
  body := nofun
  dcs := nofun
  post := nofun

/-- Every error ends in a state that meets the invariant (60_exceptions.md R215). -/
theorem MayComplete.error (h : MayComplete s) {e : ErrCode} (he : e ≠ .none) : Inv (Machine.complete .err e s) :=
  h.complete (by simp [he]) nofun

theorem Inv.mayComplete (h : Inv s) : MayComplete s where
  mem := h.mem
  resultLen := h.resultLen
  fresh := h.fresh
  demux hq := by
    cases hx : s.xstate with
    | idle => rfl
    | send => exact absurd hx h.noSend
    | wait =>
      obtain ⟨-, -, hq'⟩ := h.waitRun hx
      simp [hq] at hq'

theorem resetInput_inv (s : State) : Inv (resetInput s) where
  mem := resetInput_memory_wf s
  busyDone := by simp
  idle _ := ⟨rfl, rfl⟩
  cleared := nofun
  errKind := by simp
  dataValid := nofun
  resultLen := by simp
  fresh _ := ⟨rfl, rfl, rfl⟩
  noSend := nofun
  plainRun hd := absurd rfl hd
  waitRun := nofun
  bound _ _ := nofun
  hdr := nofun
  body := nofun
  dcs := nofun
  post := nofun

/-! ### The turn of `SENDWAIT`'s loop -/

/-- `SENDWAIT` at the turn of its loop (43_dispatch.md R175): as in its wait phase, but all the inner runs that
`MAX_FRAMES` allows may have been made. -/
structure AtTurn (s : State) : Prop where
  mayComplete : MayComplete s
  busy : s.busy = true
  notDone : s.done = false
  cleared : s.rKind = .none ∧ s.rErr = .none
  waiting : s.xstate = .wait
  op : s.op = 3
  hasDemux : s.params.hasDemux = true
  bound : ∀ m, s.params.maxFrames = some m → s.frames ≤ m

theorem AtTurn.nextRun (h : AtTurn s) : Inv (nextRun s) := by
  obtain ⟨-, hr⟩ | ⟨hm, hr⟩ := nextRun_cases s <;> rw [hr]
  · exact h.mayComplete.error (by decide)
  obtain ⟨hc, hb, hnd, ⟨hk, he⟩, hx, hop, hq, hbound⟩ := h
  exact {
    mem := hc.mem
    busyDone := by simp [hnd]
    idle := by simp [hb]
    cleared := fun _ => ⟨hk, he⟩
    errKind := by simp [hk, he]
    dataValid := by simp [hk]
    resultLen := hc.resultLen
    fresh := hc.fresh
    noSend := by simp [hx]
    plainRun := by simp [hx]
    waitRun := fun _ => ⟨hop, nofun, hq⟩
    bound := fun m hm' _ => lt_of_le_of_ne (hbound m hm') (by rintro rfl; exact hm hm')
    hdr := nofun
    body := nofun
    dcs := nofun
    post := nofun }

/-- The end of an inner run comes to the turn of the loop. -/
theorem Inv.countRun_atTurn (h : Inv s) (hb : s.busy = true) (hx : s.xstate = .wait) : AtTurn (countRun s) := by
  obtain ⟨hop, -, hq⟩ := h.waitRun hx
  exact {
    mayComplete := { h.mayComplete with }
    busy := hb
    notDone := by simpa [hb] using h.busyDone
    cleared := h.cleared hb
    waiting := hx
    op := hop
    hasDemux := hq
    bound := fun m hm => h.bound m hm hx }

/-! ### The end of a decode run -/

/-- A response of at most 253 bytes may be written at any time (10_state.md R29, R31). -/
theorem Inv.writeResult (h : Inv s) {r : Response} (hr : r.data.length ≤ 253) : Inv (writeResult r s) :=
  { h with
    mem := writeResult_memory_wf (by omega) h.mem
    dataValid := fun _ => rfl
    resultLen := by
      simp only [writeResult_rLen, BitVec.toNat_ofNat]
      omega
    fresh := nofun }

theorem Inv.endAck (h : Inv s) (hb : s.busy = true) : Inv (endAck s) := by
  obtain ⟨hx, he⟩ | ⟨-, he⟩ := endAck_cases s <;> rw [he]
  · exact (h.countRun_atTurn hb hx).nextRun
  · exact h.mayComplete.complete (by decide) nofun

theorem Inv.endData (h : Inv s) (hb : s.busy = true) {r : Response} (hr : r.data.length ≤ 253) :
    Inv (endData r s) := by
  have hw := h.writeResult hr
  obtain ⟨hx, -, he⟩ | ⟨hx, -, he⟩ | ⟨-, he⟩ := endData_cases r s <;> rw [he]
  · exact (hw.countRun_atTurn hb hx).mayComplete.complete (by decide) fun _ => rfl
  · exact (hw.countRun_atTurn hb hx).nextRun
  · exact hw.mayComplete.complete (by decide) fun _ => rfl

theorem Inv.rowOutcome (h : Inv s) (hb : s.busy = true) (r : ClassRow) : Inv (rowOutcome r s) := by
  cases r with
  | row1 | row2 | row3 | row4 | row6 | row7 => exact h.mayComplete.error (by decide)
  | row5 => exact h.endAck hb
  | row8 =>
    have hdata := response_data_length s.params (frameData s)
    have hframe := frameData_length_le s
    exact h.endData hb (by omega)

/-! ### A byte that meets no row -/

/-- The length checksum is tested before the decoder leaves `D_BODY`, and only a frame with frame data has a data
checksum (42_decode_fsm.md R156, R161). -/
structure LengthChecked (s : State) : Prop where
  dcs : s.dstate = .dcs → 1 ≤ s.len.toNat ∧ s.len + s.lcs = 0
  post : s.dstate = .post → s.len + s.lcs = 0

theorem advance_lengthChecked {b : Byte} (h : LengthChecked s) (hv : verdict s (.byte b) = none) :
    LengthChecked (advance b s) := by
  cases hd : s.dstate with
  | idle => simpa [advance, hd] using h
  | sync =>
    by_cases hp : b = Config.preamble
    · rw [advance_sync_preamble hd hp]
      exact ⟨nofun, nofun⟩
    · rwa [advance_sync_noise hd hp]
  | hdr =>
    simp only [advance, hd]
    split <;> exact ⟨by simp, by simp⟩
  | body =>
    by_cases hi : s.idx.toNat < s.len.toNat
    · rw [advance_body_more hd hi]
      exact ⟨by simp [hd], by simp [hd]⟩
    · have hgood : s.len + (storeBody b s).lcs = 0 := by
        simpa [verdict_body_last hd hi, lcsGood] using hv
      rw [advance_body_last hd hi]
      by_cases hl : s.len = 0
      · exact ⟨by simp [hl], fun _ => (storeBody_len s b).symm ▸ hgood⟩
      · rw [if_neg hl]
        refine ⟨fun _ => ⟨?_, (storeBody_len s b).symm ▸ hgood⟩, nofun⟩
        simp only [storeBody_len]
        bv_omega
  | dcs =>
    rw [advance_dcs hd]
    exact ⟨nofun, fun _ => (h.dcs hd).2⟩
  | post => simp [verdict_post hd] at hv

theorem Inv.decoderOk (h : Inv s) : DecoderOk s := by
  obtain ⟨-, -, hf, -⟩ := (memory_wf_iff s).1 h.mem
  exact ⟨hf, h.hdr, h.body⟩

/-- A running operation keeps the invariant when only its decoder's registers change, within their bounds. -/
theorem Inv.withDecoder (h : Inv s) (hb : s.busy = true) (hop : s.xstate = .idle → s.op = 2) {d : DState}
    {i : BitVec 9} {n l : Byte} {f : List Byte} (hd : d ≠ .idle) (hok : DecoderOk (s.withDecoder d i n l f))
    (hlen : LengthChecked (s.withDecoder d i n l f)) : Inv (s.withDecoder d i n l f) :=
  { h with
    mem := memory_wf_of_lengths h.mem rfl rfl (hok.fd.trans h.decoderOk.fd.symm) rfl
    idle := by simp [State.withDecoder, hb]
    plainRun := fun _ => hop
    waitRun := fun hx => (h.waitRun hx).imp_right (.imp_left fun _ => hd)
    hdr := hok.hdr
    body := hok.body
    dcs := hlen.dcs
    post := hlen.post }

theorem Inv.advance (h : Inv s) {b : Byte} (hb : s.busy = true) (hd : s.dstate ≠ .idle)
    (hv : verdict s (.byte b) = none) : Inv (advance b s) := by
  have hok := advance_decoderOk b h.decoderOk hd hv
  have hlen := advance_lengthChecked ⟨h.dcs, h.post⟩ hv
  have hne := advance_dstate_ne_idle b hd
  obtain ⟨d, i, n, l, f, he⟩ := advance_eq b s
  rw [he] at hok hlen hne ⊢
  exact h.withDecoder hb (h.plainRun hd) hne hok hlen

/-- `DECODE` begins its scan (42_decode_fsm.md R151). -/
theorem Inv.beginScan (h : Inv s) (hb : s.busy = true) (hop : s.op = 2) : Inv { s with dstate := .sync } :=
  h.withDecoder (d := .sync) (i := s.idx) (n := s.len) (l := s.lcs) (f := s.fd) hb (fun _ => hop) nofun
    ⟨h.decoderOk.fd, nofun, nofun⟩ ⟨nofun, nofun⟩

/-! ### Frame writes -/

/-- A frame write touches `TXB`, the TX stream and the sink only. -/
theorem txFrame_eq (f : List Byte) (s : State) :
    ∃ b o a d, txFrame f s = { s with txb := b, tx := o, txAns := a, draws := d } := by
  unfold txFrame dropTxEvent
  split <;> exact ⟨_, _, _, _, rfl⟩

theorem MayComplete.txFrame (h : MayComplete s) {f : List Byte} (hf : f.length ≤ 262) : MayComplete (txFrame f s) := by
  have hm := txFrame_memory_wf hf h.mem
  obtain ⟨b, o, a, d, he⟩ := txFrame_eq f s
  rw [he] at hm ⊢
  exact { h with mem := hm }

/-- A frame write ends in a state that meets the invariant: completed, reset, or at the turn of the loop. -/
theorem MayComplete.writeFrame (h : MayComplete s) {w : Bool} {f : List Byte} (hf : f.length ≤ 262)
    (hturn : w = true → AtTurn { Machine.txFrame f s with xstate := .wait }) : Inv (writeFrame w f s) := by
  have ht := h.txFrame hf
  obtain ⟨-, hw, he⟩ | ⟨-, -, he⟩ | ⟨n, -, he⟩ | ⟨n, -, he⟩ := writeFrame_cases w f s <;> rw [he]
  · exact (hturn hw).nextRun
  · exact ht.complete (by decide) nofun
  · exact ht.error (by decide)
  · exact resetInput_inv _

theorem encodeFrame_payload_length_le (c : Byte) (h : Memory.wf s = true) :
    (encodeFrame c (payload s)).length ≤ 262 := by
  have := payload_length_le h
  rw [encodeFrame_length]
  omega

/-- The latched command and the frame written bring `SENDWAIT` to the first turn of its loop (43_dispatch.md R177). -/
theorem Inv.sent_atTurn (h : Inv s) (hb : s.busy = true) (hop : s.op = 3) (hq : s.params.hasDemux = true)
    {f : List Byte} (hf : f.length ≤ 262) :
    AtTurn { txFrame f (latchCommand s) with xstate := .wait } := by
  have hm := txFrame_memory_wf (s := latchCommand s) hf h.mem
  obtain ⟨b, o, a, d, he⟩ := txFrame_eq f (latchCommand s)
  rw [he] at hm ⊢
  exact {
    mayComplete := { h.mayComplete with
      mem := hm
      demux := by simp [hq] }
    busy := hb
    notDone := by simpa [hb] using h.busyDone
    cleared := h.cleared hb
    waiting := rfl
    op := hop
    hasDemux := hq
    bound := fun m _ => Nat.zero_le m }

theorem Inv.sendPhase (h : Inv s) (hb : s.busy = true) (hop : s.op = 3) (hq : s.params.hasDemux = true) :
    Inv (sendPhase (latchCommand s)) := by
  have hc : MayComplete (latchCommand s) :=
    { h.mayComplete with demux := by simp [hq] }
  have hf := encodeFrame_payload_length_le s.cCmd h.mem
  unfold Machine.sendPhase
  split
  · exact hc.error (by decide)
  · exact hc.writeFrame hf fun _ => h.sent_atTurn hb hop hq hf

/-! ### The moves of a step -/

theorem decodeOp_eq_decode_iff (op : BitVec 2) : decodeOp op = .decode ↔ op = 2 := by
  revert op
  decide

theorem Inv.consume (h : Inv s) : Inv (consume s) := { h with }

theorem Inv.withAgenda (h : Inv s) (a : List Turn) : Inv (s.withAgenda a) := { h with }

/-- A move of the block keeps the invariant. -/
theorem BlockStep.inv (hs : BlockStep s t) (h : Inv s) : Inv t := by
  have hc := h.mayComplete
  cases hs with
  | still => exact h
  | nop => exact hc.complete (by decide) nofun
  | overlong | badOp => exact hc.error (by decide)
  | encode => exact hc.writeFrame (encodeFrame_payload_length_le s.cCmd h.mem) nofun
  | decode hb _ _ ho => exact h.beginScan hb ((decodeOp_eq_decode_iff s.op).1 ho)
  | sendwait hb _ _ ho hq => exact h.sendPhase hb ((decodeOp_eq_sendwait_iff s.op).1 ho) hq
  | sending _ _ hx => exact absurd hx h.noSend
  | turning _ hd hx =>
    obtain ⟨-, hne, -⟩ := h.waitRun hx
    exact absurd hd hne
  | row r hr =>
    obtain ⟨hb, -⟩ := pendingRow_eq_some hr
    exact h.consume.rowOutcome hb r
  | byte b rest hb hd _ hr => exact h.consume.advance hb hd (by rwa [verdict_consume])

/-- While no operation runs the operand registers may hold anything (10_state.md R21). -/
theorem Inv.withOperands (h : Inv s) (hb : s.busy = false) (op : BitVec 2) (c n : Byte) {p : List Byte}
    (hp : p.length = s.cPay.length) : Inv { s with op := op, cCmd := c, cPlen := n, cPay := p } :=
  { h with
    mem := memory_wf_of_lengths h.mem hp rfl rfl rfl
    plainRun := fun hd => absurd (h.idle hb).1 hd
    waitRun := fun hx => by simp [(h.idle hb).2] at hx }

theorem Inv.startStep (h : Inv s) (hb : s.busy = false) : Inv (startStep s) := by
  obtain ⟨hd, hx⟩ := h.idle hb
  exact { h with
    busyDone := by simp
    idle := nofun
    cleared := fun _ => ⟨rfl, rfl⟩
    errKind := by simp
    dataValid := nofun }

theorem Inv.hostStart (h : Inv s) : Inv (hostStart s) := by
  unfold Machine.hostStart
  split
  · exact h
  · have hs := h.startStep (Bool.eq_false_iff.2 ‹_›)
    split
    · exact hs.mayComplete.error (by decide)
    · exact hs

/-- The host writes an operand register of an idle block only (20_memory.md R58). -/
theorem operandWrite_eq_next_iff {t u : State} : operandWrite t s = .next u ↔ s.busy = false ∧ u = t := by
  cases hb : s.busy <;> simp [operandWrite, hb, eq_comm]

/-- A host act keeps the invariant. -/
theorem Inv.hostStep (h : Inv s) {a : HostAct} (ha : hostStep a s = .next t) : Inv t := by
  cases a with
  | writeOp | writeCmd | writePlen =>
    obtain ⟨hb, rfl⟩ := operandWrite_eq_next_iff.1 ha
    exact h.withOperands hb _ _ _ rfl
  | writePay i v =>
    obtain ⟨hb, rfl⟩ := operandWrite_eq_next_iff.1 ha
    exact h.withOperands hb _ _ _ List.length_set
  | start =>
    cases ha
    exact h.hostStart
  | read r =>
    cases ha
    unfold hostReadReg
    split <;> exact { h with }
  | reset =>
    cases ha
    exact resetInput_inv s

/-- Settles O4: each move of a step keeps the invariant. -/
theorem stepKeepsInvariant : Obligations.StepKeepsInvariant := by
  intro s t h hstep
  cases moved_of_step hstep with
  | block a hb => exact hb.inv (h.withAgenda a)
  | answer | arrival => exact { h with }
  | awaited rest => exact h.withAgenda rest
  | host a rest _ hh => exact (h.withAgenda rest).hostStep hh

end Sys2Proof.Machine
end

/-! # The host port and what arrives

Operand writes and reads at the host port (20_memory.md R58), and events that wait in the RX stream (R53). -/

section
namespace Sys2Proof.Machine

/-- Settles O11: the step is the host's operand write, which `BUSY` guards. -/
theorem hostWritesOperands : Obligations.HostWritesOperands :=
  ⟨fun _ _ _ => step_of_host, fun _ _ _ => step_of_host, fun _ _ _ => step_of_host, fun _ _ _ _ => step_of_host⟩

/-! ### Reads -/

section
variable {s : State} {r : HostReg}

/-- A read writes the value read and the draw counter only. -/
theorem hostReadReg_eq (r : HostReg) (s : State) :
    ∃ v d, hostReadReg r s = { s with hostRead := v, draws := d } := by
  unfold hostReadReg
  split <;> exact ⟨_, _, rfl⟩

/-- While the block is idle every register is settled; `BUSY`, `DONE` and the outcome always are (U11). -/
theorem unsettled_eq_false (h : s.busy = false ∨ r = .busy ∨ r = .done ∨ r = .rKind ∨ r = .rErr) :
    unsettled s r = false := by
  obtain hb | rfl | rfl | rfl | rfl := h
  · cases r <;> simp [unsettled, hb]
  all_goals rfl

theorem hostReadReg_hostRead (h : unsettled s r = false) : (hostReadReg r s).hostRead = regValue s r := by
  simp [hostReadReg, h]

end

/-- Settles O12: a read writes the model's own fields only, and a settled register reads as its value. -/
theorem hostReadHasNoSideEffect : Obligations.HostReadHasNoSideEffect := by
  intro s rest r ha
  have hread : s.busy = false ∨ r = .busy ∨ r = .done ∨ r = .rKind ∨ r = .rErr →
      (hostReadReg r (s.withAgenda rest)).hostRead = regValue s r := fun h =>
    hostReadReg_hostRead (s := s.withAgenda rest) (unsettled_eq_false h)
  refine ⟨_, step_of_host ha, ?_⟩
  obtain ⟨v, d, he⟩ := hostReadReg_eq r (s.withAgenda rest)
  rw [he] at hread ⊢
  refine ⟨⟨rfl, rfl, rfl, rfl⟩, ⟨rfl, rfl, rfl, rfl⟩, ⟨rfl, rfl, rfl, rfl, rfl⟩, ⟨rfl, rfl, rfl, rfl, rfl⟩,
    ⟨rfl, rfl, rfl⟩, ⟨rfl, rfl, rfl⟩, rfl, rfl, rfl, fun h => (hread h).trans ?_⟩
  cases r with
  | rKind => cases hk : s.rKind <;> simp [regValue, hk, kindCode]
  | rErr => cases hc : s.rErr <;> simp [regValue, hc, errCode]
  | busy | done | rValid | rCmd | rStatus | rLen | rData => rfl

/-! ### Arrivals -/

/-- Settles O13: the agenda's head is an arrival. -/
theorem arrivingEventWaits : Obligations.ArrivingEventWaits := by
  intro s rest e ha
  simp [step, nextMove, ha, arrive]

theorem decoderStep_of_not_requesting {s : State} (h : requesting s = false) : decoderStep s = s := by
  simp [decoderStep, h]

/-- Bytes that arrive while the block requests none wait in order in the RX stream (42_decode_fsm.md R163). -/
theorem deliver_of_not_requesting {s : State} (h : requesting s = false) (bs : List Byte) :
    deliver bs s = { s with rx := s.rx ++ bs.map .byte } := by
  induction bs generalizing s with
  | nil => simp [deliver]
  | cons b bs ih =>
    have ha : requesting (arrive (.byte b) s) = false := h
    have hrest : deliver (b :: bs) s = deliver bs (arrive (.byte b) s) :=
      congrArg (deliver bs) (decoderStep_of_not_requesting ha)
    rw [hrest, ih ha]
    simp [arrive]

/-- Settles O29: both rows are the arrival of the frame's bytes, which the block does not request. -/
theorem inboundFrameWaits : Obligations.InboundFrameWaits := by
  intro s hs
  have hq : requesting s = false := by
    obtain hb | hd := hs
    · simp [requesting, hb]
    · simp [requesting, hd]
  exact ⟨fun s1 s2 e q => congrArg _ (deliver_of_not_requesting hq _),
    fun s1 s2 => congrArg _ (deliver_of_not_requesting hq _)⟩

end Sys2Proof.Machine
end

/-! # The rows and their bytes

`decode` and `encode` are inverse to each other on the rows of every format (30_encoding.md R104). -/

section
namespace Sys2Proof.Machine

/-! ### The layout of a data frame -/

/-- One byte passes the length-checksum test (30_encoding.md R87). -/
theorem lcsGood_iff (len lcs : Byte) : lcsGood len lcs = true ↔ lcs = lcsOf len := by
  simp only [lcsGood, lcsOf, beq_iff_eq]
  bv_omega

/-- One byte passes the data-checksum test (30_encoding.md R88). -/
theorem dcsGood_iff (fd : List Byte) (d : Byte) : dcsGood fd d = true ↔ d = dcsOf fd := by
  simp only [dcsGood, dcsOf, beq_iff_eq]
  bv_omega

/-- The frame of 30_encoding.md R82 with the frame data `fd`. -/
def wireFrame (s1 s2 : Byte) (fd : List Byte) : List Byte :=
  Config.preamble :: s1 :: s2 :: BitVec.ofNat 8 fd.length :: lcsOf (BitVec.ofNat 8 fd.length) ::
    (fd ++ [dcsOf fd, Config.postamble])

theorem frameBytes_eq_wireFrame (s1 s2 t x : Byte) (q : List Byte) :
    frameBytes s1 s2 t x q = wireFrame s1 s2 (t :: x :: q) := by
  simp [frameBytes, wireFrame, lenOf, Nat.add_comm 2]

/-- The length byte of a data frame holds the length, which is not 0. -/
theorem ofNat_toNat_and_ne_zero {n : Nat} (h0 : 0 < n) (h : n ≤ 255) :
    (BitVec.ofNat 8 n).toNat = n ∧ BitVec.ofNat 8 n ≠ 0 := by
  have hn : (BitVec.ofNat 8 n).toNat = n := by simp; omega
  exact ⟨hn, by bv_omega⟩

/-! ### Decoding what was encoded -/

/-- The tests of a data frame all pass; its frame data say which row it is. -/
theorem decodeFrame_wireFrame (s1 s2 : Byte) {fd : List Byte} (h0 : 0 < fd.length) (h : fd.length ≤ 255)
    (rest : List Byte) :
    decodeFrame (wireFrame s1 s2 fd ++ rest) = (decodeFrameData s1 s2 fd).map fun i => (i, rest) := by
  obtain ⟨hlen, hne⟩ := ofNat_toNat_and_ne_zero h0 h
  simp only [wireFrame, List.cons_append, List.append_assoc, List.nil_append, decodeFrame, hlen, hne,
    (lcsGood_iff _ _).2 rfl, (dcsGood_iff _ _).2 rfl, List.take_left, List.drop_left]
  cases decodeFrameData s1 s2 fd <;> simp [Except.map]

theorem decodeFrame_frameBytes (s1 s2 t x : Byte) {q : List Byte} (h : q.length ≤ 253) (rest : List Byte) :
    decodeFrame (frameBytes s1 s2 t x q ++ rest) = (decodeFrameData s1 s2 (t :: x :: q)).map fun i => (i, rest) := by
  rw [frameBytes_eq_wireFrame]
  exact decodeFrame_wireFrame s1 s2 (by simp) (by simp; omega) rest

theorem decodeFrame_ackBytes (s1 s2 : Byte) (rest : List Byte) :
    decodeFrame (ackBytes s1 s2 ++ rest) = .ok (.frameAck s1 s2, rest) := rfl

/-- Settles O17: a data frame by its layout, a command id and an error outcome by their operand; every other row has one
encoding, which decodes to it. -/
theorem decodeOfEncodeIsIdentity : Obligations.DecodeOfEncodeIsIdentity := by
  intro thru i rest hwf
  cases i with
  | frameOutData c p => exact decodeFrame_frameBytes _ _ _ _ (of_decide_eq_true hwf) rest
  | frameInData s1 s2 e q => exact decodeFrame_frameBytes _ _ _ _ (of_decide_eq_true hwf) rest
  | frameAck s1 s2 => exact decodeFrame_ackBytes s1 s2 rest
  | cmdCommThru =>
    have hne : thru ≠ Config.cmdDataExchange := of_decide_eq_true hwf
    simp [decode, formatOf, encode, decodeCmdId, hne]
  | cmdOther c =>
    obtain ⟨hne, hthru⟩ : c ≠ Config.cmdDataExchange ∧ c ≠ thru := of_decide_eq_true hwf
    simp [decode, formatOf, encode, decodeCmdId, hne, hthru]
  | kindErr e =>
    cases e with
    | none => cases hwf
    | tx | rx | lcs | dcs | postamble | direction | frameLen | payload | timeout | badOp => rfl
  | nop | encode | decode | sendwait => rfl
  | class1 | class2 | class3 | class4 | class5 | class6 | class7 | class8 => rfl
  | cmdDataExchange | kindNone | kindAck | kindData => rfl
  | errNone | errTx | errRx | errLcs | errDcs | errPostamble | errDirection | errFrameLen => rfl
  | errPayload | errTimeout | errBadOp => rfl

/-! ### Encoding what was decoded -/

/-- Frame data that are a row have a TFI and a command byte, and are inbound with any start codes or outbound with the
fixed ones (30_encoding.md R84, R85). -/
theorem decodeFrameData_eq_ok {s1 s2 : Byte} {fd : List Byte} {i : Instr} (h : decodeFrameData s1 s2 fd = .ok i) :
    ∃ x q, (fd = Config.tfiIn :: x :: q ∧ i = .frameInData s1 s2 x q) ∨
      (fd = Config.tfiOut :: x :: q ∧ s1 = Config.start1 ∧ s2 = Config.start2 ∧ i = .frameOutData x q) := by
  match fd with
  | [] => cases h
  | [tfi] =>
    simp only [decodeFrameData] at h
    split_ifs at h
  | tfi :: x :: q =>
    simp only [decodeFrameData] at h
    split_ifs at h with hin hout hstart
    · cases h
      exact ⟨x, q, .inl ⟨by rw [hin], rfl⟩⟩
    · cases h
      exact ⟨x, q, .inr ⟨by rw [hout], hstart.1, hstart.2, rfl⟩⟩

/-- A frame that decodes is an acknowledgement, or a data frame whose frame data say which row it is. -/
theorem decodeFrame_eq_ok {bs rest : List Byte} {i : Instr} (h : decodeFrame bs = .ok (i, rest)) :
    (∃ s1 s2, bs = ackBytes s1 s2 ++ rest ∧ i = .frameAck s1 s2) ∨
      ∃ s1 s2 fd, bs = wireFrame s1 s2 fd ++ rest ∧ fd.length ≤ 255 ∧ decodeFrameData s1 s2 fd = .ok i := by
  unfold decodeFrame at h
  split at h
  case h_2 => cases h
  case h_1 pre s1 s2 len lcs body =>
  split_ifs at h with hpre hbody hlcs hlen
  all_goals
    obtain rfl := not_not.1 hpre
    obtain rfl := (lcsGood_iff len lcs).1 (eq_true_of_ne_false hlcs)
  · subst hlen
    match body with
    | [] => cases h
    | post :: tail =>
      dsimp only at h
      split_ifs at h with hpost
      cases h
      exact .inl ⟨s1, s2, by rw [hpost]; rfl, rfl⟩
  · obtain ⟨fd, tail, rfl, hfd⟩ : ∃ fd tail, body = fd ++ tail ∧ fd.length = len.toNat :=
      ⟨_, _, (List.take_append_drop len.toNat body).symm, List.length_take_of_le (not_lt.1 hbody)⟩
    simp only [← hfd, List.take_left, List.drop_left] at h
    match tail with
    | [] => cases h
    | [d] =>
      dsimp only at h
      split_ifs at h
    | d :: post :: tail =>
      dsimp only at h
      split_ifs at h with hdcs hpost
      obtain rfl := (dcsGood_iff fd d).1 (eq_true_of_ne_false hdcs)
      obtain rfl := not_not.1 hpost
      cases hi : decodeFrameData s1 s2 fd with
      | error r => simp [hi] at h
      | ok i' =>
        obtain ⟨rfl, rfl⟩ : i' = i ∧ tail = rest := by simpa [hi] using h
        have hlt := len.isLt
        refine .inr ⟨s1, s2, fd, ?_, by omega, hi⟩
        simp [wireFrame, hfd]

/-- The codes that decode (60_exceptions.md R210). -/
theorem decodeErrCode_eq_ok {b : Byte} {e : ErrCode} (h : decodeErrCode b = .ok e) : b = (errCode e).setWidth 8 := by
  unfold decodeErrCode at h
  split at h
  case h_12 => cases h
  all_goals
    cases h
    exact BitVec.eq_of_toNat_eq ‹_›

/-- The bytes `bs` are the row `i` of the format `f`. -/
structure IsRow (thru : Byte) (f : Format) (i : Instr) (bs : List Byte) : Prop where
  bytes : encode thru i = bs
  format : formatOf i = f
  wellFormed : wellFormed thru i = true

section
variable (thru : Byte) {b : Byte} {bs rest : List Byte} {i : Instr}

theorem decodeFrame_isRow (h : decodeFrame bs = .ok (i, rest)) : ∃ row, IsRow thru .frame i row ∧ bs = row ++ rest := by
  obtain ⟨s1, s2, rfl, rfl⟩ | ⟨s1, s2, fd, rfl, hfd, hi⟩ := decodeFrame_eq_ok h
  · exact ⟨_, ⟨rfl, rfl, rfl⟩, rfl⟩
  refine ⟨_, ?_, rfl⟩
  obtain ⟨x, q, ⟨rfl, rfl⟩ | ⟨rfl, rfl, rfl, rfl⟩⟩ := decodeFrameData_eq_ok hi
  all_goals
    have hq : q.length ≤ 253 := by simp at hfd; omega
    exact ⟨frameBytes_eq_wireFrame .., rfl, decide_eq_true hq⟩

theorem decodeOp_isRow (hb : b.toNat < 4) : IsRow thru .op (decodeOp (b.setWidth 2)) [b] := by
  obtain rfl | rfl | rfl | rfl : b = 0 ∨ b = 1 ∨ b = 2 ∨ b = 3 := by bv_omega
  all_goals exact ⟨rfl, rfl, rfl⟩

theorem decodeClass_isRow (h : decodeClass b = .ok i) : IsRow thru .cls i [b] := by
  unfold decodeClass at h
  split at h
  case h_9 => cases h
  all_goals
    cases h
    exact ⟨congrArg (fun b => [b]) (BitVec.eq_of_toNat_eq (Eq.symm ‹_›)), rfl, rfl⟩

theorem decodeCmdId_isRow (b : Byte) : IsRow thru .cmdid (decodeCmdId thru b) [b] := by
  unfold decodeCmdId
  split_ifs with hex hthru
  · exact ⟨by rw [hex]; rfl, rfl, rfl⟩
  · exact ⟨by rw [hthru]; rfl, rfl, decide_eq_true (hthru ▸ hex)⟩
  · exact ⟨rfl, rfl, decide_eq_true ⟨hex, hthru⟩⟩

theorem errRow_isRow (e : ErrCode) : IsRow thru .error (errRow e) [(errCode e).setWidth 8] := by
  cases e <;> exact ⟨rfl, rfl, rfl⟩

/-- An outcome kind that decodes, with its error code when it is `ERR` (10_state.md R27). -/
theorem decodeKind_isRow (h : decodeKind bs = .ok (i, rest)) : ∃ row, IsRow thru .kind i row ∧ bs = row ++ rest := by
  match bs with
  | [] => cases h
  | b :: tail =>
    unfold decodeKind at h
    dsimp only at h
    split at h
    case h_5 => cases h
    case h_4 hb =>
      obtain rfl : b = 3 := BitVec.eq_of_toNat_eq hb
      split at h
      · cases h
      · rename_i c tail
        split at h
        case h_3 e hne he =>
          obtain rfl := decodeErrCode_eq_ok he
          cases h
          exact ⟨_, ⟨rfl, rfl, decide_eq_true hne⟩, rfl⟩
        all_goals cases h
    all_goals
      cases h
      exact ⟨[b], ⟨congrArg (fun b => [b]) (BitVec.eq_of_toNat_eq (Eq.symm ‹_›)), rfl, rfl⟩, rfl⟩

end

/-- Settles O18: format by format, what decodes begins with its row's bytes. -/
theorem encodeOfDecodeIsIdentity : Obligations.EncodeOfDecodeIsIdentity := by
  intro thru f bs rest i h
  suffices hrow : ∃ row, IsRow thru f i row ∧ bs = row ++ rest by
    obtain ⟨row, ⟨rfl, hf, hwf⟩, rfl⟩ := hrow
    exact ⟨rfl, hf, hwf⟩
  match f, bs with
  | .frame, bs => exact decodeFrame_isRow thru h
  | .kind, bs => exact decodeKind_isRow thru h
  | .op, [] | .cls, [] | .cmdid, [] | .error, [] => cases h
  | .op, b :: tail =>
    simp only [decode] at h
    split_ifs at h with hb
    cases h
    exact ⟨[b], decodeOp_isRow thru hb, rfl⟩
  | .cls, b :: tail =>
    simp only [decode] at h
    cases hi : decodeClass b with
    | error r => simp [hi] at h
    | ok j =>
      obtain ⟨rfl, rfl⟩ : j = i ∧ tail = rest := by simpa [hi] using h
      exact ⟨[b], decodeClass_isRow thru hi, rfl⟩
  | .cmdid, b :: tail =>
    cases h
    exact ⟨[b], decodeCmdId_isRow thru b, rfl⟩
  | .error, b :: tail =>
    simp only [decode] at h
    cases he : decodeErrCode b with
    | error r => simp [he] at h
    | ok e =>
      obtain ⟨rfl, rfl⟩ : errRow e = i ∧ tail = rest := by simpa [he] using h
      obtain rfl := decodeErrCode_eq_ok he
      exact ⟨_, errRow_isRow thru e, rfl⟩

end Sys2Proof.Machine
end

/-! # A whole data frame

What `DECODE`'s procedure makes of a frame whose checksums and postamble are good (41_decode.md R125, R134 to R138). -/

section
namespace Sys2Proof.Machine

/-- Bytes that wait are read in order. -/
theorem rxExact_bytes (bs : List Byte) (evs : List RxEvent) :
    rxExact bs.length (bs.map .byte ++ evs) = .ok bs evs := by
  induction bs with
  | nil => rfl
  | cons b bs ih => simp [rxExact, rxByte, ih]

/-- The procedure takes the whole frame and ends as its frame data say. -/
theorem decodeRun_wireFrame (p : Config.Params) (s1 s2 : Byte) {fd : List Byte} (h0 : 0 < fd.length)
    (h : fd.length ≤ 255) (more : List RxEvent) :
    decodeRun p ((wireFrame s1 s2 fd).map .byte ++ more) = .ended (classifyFrame p fd) more := by
  obtain ⟨hlen, hne⟩ := ofNat_toNat_and_ne_zero h0 h
  have hread : decodeRun p ((wireFrame s1 s2 fd).map .byte ++ more) =
      checkBody p (BitVec.ofNat 8 fd.length) (lcsOf (BitVec.ofNat 8 fd.length)) fd
        (.byte (dcsOf fd) :: .byte Config.postamble :: more) := by
    have hhead (n : Byte) (evs : List RxEvent) :
        rxExact 3 (.byte s1 :: .byte s2 :: .byte n :: evs) = .ok [s1, s2, n] evs := rfl
    have hbody := rxExact_bytes (lcsOf (BitVec.ofNat 8 fd.length) :: fd)
    simp only [List.length_cons, List.map_cons, List.cons_append] at hbody
    simp [decodeRun, wireFrame, rxScan, Read.andThen, hhead, hbody, hlen]
  rw [hread, checkBody_good fd _ ((lcsGood_iff _ _).2 rfl), if_neg hne]
  simp [dcsRun, rxByte, Read.andThen, (dcsGood_iff fd _).2 rfl, readPost]

/-- Settles O27: the encoder's frame is a whole frame, and its TFI is outbound. -/
theorem encoderFrameIsRejected : Obligations.EncoderFrameIsRejected := by
  intro p c q more hq
  have hrun := decodeRun_wireFrame p Config.start1 Config.start2 (fd := Config.tfiOut :: c :: q) (by simp)
    (by simp; omega) more
  rw [encodeFrame, frameBytes_eq_wireFrame, hrun]
  rfl

end Sys2Proof.Machine
end

/-! # The ends of a run, case by case

What a completion, the turn of `SENDWAIT`'s loop and the two good ends of a run make of a state. -/

section
namespace Sys2Proof.Machine

variable {s t : State}

theorem sameAgents_of_others (h : t.others = s.others) : SameAgents s t :=
  ⟨congrArg Others.params h, congrArg Others.source h, congrArg Others.agenda h, congrArg Others.hostRead h⟩

/-- A completion of a state with the same parameters. -/
theorem completed_of_params (k : Kind) (e : ErrCode) (hp : t.params = s.params) : Completed k e s (complete k e t) where
  kind := rfl
  code := rfl
  notBusy := rfl
  done := rfl
  decoderIdle := rfl
  demuxIdle hq := by simp [hp, hq]

theorem nextRun_of_bound (h : s.params.maxFrames = some s.frames) : nextRun s = complete .err .timeout s := if_pos h

/-- Below the bound the next inner run begins with its scan (43_dispatch.md R178). -/
theorem nextRun_of_below (h : s.params.maxFrames ≠ some s.frames) :
    (nextRun s).dstate = .sync ∧ SameDemux s (nextRun s) ∧ SameOutcome s (nextRun s) := by
  rw [nextRun, if_neg h]
  exact ⟨rfl, ⟨rfl, rfl, rfl⟩, ⟨rfl, rfl, rfl, rfl⟩⟩

theorem SameOutcome.trans {u : State} (h : SameOutcome s t) (h' : SameOutcome t u) : SameOutcome s u :=
  ⟨h'.busy.trans h.busy, h'.done.trans h.done, h'.rKind.trans h.rKind, h'.rErr.trans h.rErr⟩

theorem endAck_of_plain (hx : s.xstate ≠ .wait) : endAck s = complete .ack .none s := by
  simpa [hx] using endAck_cases s

theorem endAck_of_wait (hx : s.xstate = .wait) : endAck s = nextRun (countRun s) := by
  simpa [hx] using endAck_cases s

section
variable {r : Response}

theorem endData_of_plain (hx : s.xstate ≠ .wait) : endData r s = complete .data .none (writeResult r s) := by
  simpa [hx] using endData_cases r s

theorem endData_of_match (hx : s.xstate = .wait) (hc : r.cmd = s.wCmd) :
    endData r s = complete .data .none (countRun (writeResult r s)) := by
  simpa [hx, hc] using endData_cases r s

theorem endData_of_other (hx : s.xstate = .wait) (hc : r.cmd ≠ s.wCmd) :
    endData r s = nextRun (countRun (writeResult r s)) := by
  simpa [hx, hc] using endData_cases r s

end

/-! ### The result registers -/

theorem Delivered.congr {r : Response} (h : Delivered r s) (hd : t.hostData = s.hostData) : Delivered r t :=
  ⟨(congrArg HostData.rValid hd).trans h.rValid, (congrArg HostData.rCmd hd).trans h.rCmd,
    (congrArg HostData.rStatus hd).trans h.rStatus, (congrArg HostData.rLen hd).trans h.rLen,
    (congrArg (·.rData.take r.data.length) hd).trans h.rData⟩

theorem writeResult_delivered (r : Response) (s : State) : Delivered r (writeResult r s) :=
  ⟨rfl, rfl, rfl, rfl, by simp⟩

/-- Whatever a data frame ends, its response is in the result registers (43_dispatch.md R179). -/
theorem endData_delivered (r : Response) (s : State) : Delivered r (endData r s) := by
  have hw := writeResult_delivered r s
  obtain ⟨-, -, h⟩ | ⟨-, -, h⟩ | ⟨-, h⟩ := endData_cases r s <;> rw [h]
  · exact hw.congr rfl
  · exact hw.congr (nextRun_hostData _)
  · exact hw.congr rfl

end Sys2Proof.Machine
end

/-! # Frames that arrive at a running decoder

The decoder takes each byte as it arrives (log entry 7). -/

section
namespace Sys2Proof.Machine

variable {s t : State}

/-! ### The bytes, one by one -/

theorem verdict_arrive (e : RxEvent) (s : State) : verdict (arrive e s) = verdict s :=
  verdict_congr ⟨rfl, rfl, rfl, rfl, rfl⟩

theorem consume_arrive (e : RxEvent) (hx : s.rx = []) : consume (arrive e s) = s := by
  cases s
  cases hx
  rfl

theorem decoderStep_of_row {r : ClassRow} (hr : pendingRow s = some r) : decoderStep s = rowOutcome r (consume s) := by
  obtain ⟨hb, hd, -⟩ := pendingRow_eq_some hr
  simp only [decoderStep, (requesting_iff s).2 ⟨hb, hd⟩, if_true, hr, applyRow_of_pending hr]

theorem decoderStep_of_no_row {b : Byte} {rest : List RxEvent} (hb : s.busy = true) (hd : s.dstate ≠ .idle)
    (hx : s.rx = .byte b :: rest) (hr : pendingRow s = none) : decoderStep s = advance b (consume s) := by
  simp only [decoderStep, (requesting_iff s).2 ⟨hb, hd⟩, if_true, hr, goOn_byte b rest hx]

section
variable {b : Byte} (bs : List Byte) (hb : s.busy = true) (hd : s.dstate ≠ .idle) (hx : s.rx = [])
include hb hd hx

theorem pendingRow_arrive (e : RxEvent) : pendingRow (arrive e s) = verdict s e := by
  rw [pendingRow_of_event (s := arrive e s) (e := e) (rest := []) hb hd (by simp [hx]), verdict_arrive]

/-- A byte that arrives while none waits is taken at once, and has the outcome of the row that it meets. -/
theorem deliver_cons_of_row {r : ClassRow} (hv : verdict s (.byte b) = some r) :
    deliver (b :: bs) s = deliver bs (rowOutcome r s) := by
  have hstep := decoderStep_of_row ((pendingRow_arrive hb hd hx (.byte b)).trans hv)
  rw [consume_arrive _ hx] at hstep
  exact congrArg (deliver bs) hstep

/-- A byte that arrives while none waits is taken at once, and the decoder goes on with it if it meets no row. -/
theorem deliver_cons_of_no_row (hv : verdict s (.byte b) = none) :
    deliver (b :: bs) s = deliver bs (advance b s) := by
  have hstep := decoderStep_of_no_row (s := arrive (.byte b) s) (b := b) (rest := []) hb hd (by simp [hx])
    ((pendingRow_arrive hb hd hx (.byte b)).trans hv)
  rw [consume_arrive _ hx] at hstep
  exact congrArg (deliver bs) hstep

end

/-- Bytes that make a whole run of the procedure end the decoder's run in the same way; until then they write the
decoder's registers only. -/
theorem deliver_of_resume {e : RunEnd} {bs : List Byte} (hok : DecoderOk s) (hb : s.busy = true) (hd : s.dstate ≠ .idle)
    (hx : s.rx = []) (he : resume s (bs.map .byte) = .ended e []) :
    ∃ d i n l f, deliver bs s = endRun e (s.withDecoder d i n l f) := by
  induction bs generalizing s with
  | nil => simp [resume_nil hok] at he
  | cons b bs ih =>
    rw [List.map_cons] at he
    cases hv : verdict s (.byte b) with
    | some r =>
      rw [resume_of_row hok hd hv] at he
      obtain ⟨rfl, hbs⟩ : rowEnd s r = e ∧ bs.map RxEvent.byte = [] := by simpa using he
      obtain rfl : bs = [] := List.map_eq_nil_iff.1 hbs
      rw [deliver_cons_of_row [] hb hd hx hv]
      exact ⟨s.dstate, s.idx, s.len, s.lcs, s.fd, rowOutcome_eq_endRun r s⟩
    | none =>
      rw [resume_of_byte hok hd hv] at he
      have hok' := advance_decoderOk b hok hd hv
      have hd' := advance_dstate_ne_idle b hd
      obtain ⟨d, i, n, l, f, ha⟩ := advance_eq b s
      rw [deliver_cons_of_no_row bs hb hd hx hv, ha]
      rw [ha] at he hok' hd'
      exact ih hok' hb hd' hx he

/-- A data frame that arrives at a scanning decoder ends the run as its frame data say. -/
theorem deliver_wireFrame (s1 s2 : Byte) {fd : List Byte} (h0 : 0 < fd.length) (h : fd.length ≤ 255)
    (hf : s.fd.length = 255) (hb : s.busy = true) (hd : s.dstate = .sync) (hx : s.rx = []) :
    ∃ d i n l f, deliver (wireFrame s1 s2 fd) s = endRun (classifyFrame s.params fd) (s.withDecoder d i n l f) := by
  refine deliver_of_resume ⟨hf, by simp [hd], by simp [hd]⟩ hb (by simp [hd]) hx ?_
  rw [resume_sync hd]
  simpa using decodeRun_wireFrame s.params s1 s2 h0 h []

/-- `s` with its decoder at the postamble of an acknowledgement. -/
def State.atAckPost (s : State) : State := s.withDecoder .post 0 0 0 s.fd

/-- An acknowledgement that arrives at a scanning decoder ends the run as one; its start codes are not looked at, and no
byte of `FD` is written. -/
theorem deliver_ackBytes (s1 s2 : Byte) (hb : s.busy = true) (hd : s.dstate = .sync) (hx : s.rx = []) :
    deliver (ackBytes s1 s2) s = endAck s.atAckPost := by
  calc deliver (ackBytes s1 s2) s
    _ = deliver [s1, s2, 0, 0, 0] (s.withDecoder .hdr 0 s.len s.lcs s.fd) := by
      rw [ackBytes, deliver_cons_of_no_row _ hb (by simp [hd]) hx (by simp [verdict, hd]), advance_sync_preamble hd rfl]
      rfl
    _ = deliver [s2, 0, 0, 0] (s.withDecoder .hdr 1 s.len s.lcs s.fd) := deliver_cons_of_no_row _ hb nofun hx rfl
    _ = deliver [0, 0, 0] (s.withDecoder .hdr 2 s.len s.lcs s.fd) := deliver_cons_of_no_row _ hb nofun hx rfl
    _ = deliver [0, 0] (s.withDecoder .body 0 0 s.lcs s.fd) := deliver_cons_of_no_row _ hb nofun hx rfl
    _ = deliver [0] s.atAckPost := deliver_cons_of_no_row _ hb nofun hx rfl
    _ = endAck s.atAckPost := deliver_cons_of_row (s := s.atAckPost) (r := .row5) [] hb nofun hx rfl

/-- Settles O30: the frame's bytes bring the decoder to the end of an acknowledgement, which is `DECODE`'s outcome, a
skipped run or the last one. -/
theorem ackFrameAccepted : Obligations.AckFrameAccepted := by
  intro s s1 s2 hb hd hx
  have hexec : exec (.frameAck s1 s2) s = .next (endAck s.atAckPost) :=
    congrArg _ (deliver_ackBytes s1 s2 hb hd hx)
  have hothers := endAck_others s.atAckPost
  have hops : SameOperands s _ := sameOperands_of_others hothers
  have hres : SameResults s _ := sameResults_of_hostData (endAck_hostData s.atAckPost)
  have hstr : SameStreams s _ := sameStreams_of_others hothers
  have hag : SameAgents s _ := sameAgents_of_others hothers
  refine ⟨fun h => ⟨_, hexec, ?_, hops, hres, hstr, hag⟩, fun h hm => ⟨_, hexec, ?_⟩,
    fun h hm => ⟨_, hexec, ?_, hops, hres, hstr, hag⟩⟩
  · rw [endAck_of_plain (s := s.atAckPost) (ne_of_eq_of_ne h (by decide))]
    exact completed_of_params _ _ rfl
  · rw [endAck_of_wait (s := s.atAckPost) h] at hops hres hstr hag ⊢
    obtain ⟨hsync, hdemux, hout⟩ := nextRun_of_below (s := countRun s.atAckPost) hm
    exact ⟨hdemux.xstate.trans h, hsync, hdemux.frames, hdemux.wCmd,
      ⟨hout.busy, hout.done, hout.rKind, hout.rErr⟩, hops, hres, hstr, hag⟩
  · rw [endAck_of_wait (s := s.atAckPost) h, nextRun_of_bound (s := countRun s.atAckPost) hm]
    exact completed_of_params _ _ rfl

theorem extract_cmd (p : Config.Params) (bearing : Bool) (c : Byte) (fd : List Byte) :
    (extract p bearing c fd).cmd = c := by
  unfold extract
  split_ifs <;> rfl

/-- The command id waited for is recovered from the echoed one (30_encoding.md R89). -/
theorem response_cmd_eq_iff (p : Config.Params) (t e w : Byte) (q : List Byte) :
    (response p (t :: e :: q)).cmd = w ↔ e = w + 1 := by
  rw [response, extract_cmd]
  change e - 1 = w ↔ e = w + 1
  bv_omega

/-- A data frame that arrives at a scanning decoder is delivered, whatever its start codes. -/
theorem exec_frameInData (s1 s2 e : Byte) {q : List Byte} (hq : q.length ≤ 253) (hm : Memory.wf s = true)
    (hb : s.busy = true) (hd : s.dstate = .sync) (hx : s.rx = []) :
    ∃ d i n l f, exec (.frameInData s1 s2 e q) s =
      .next (endData (response s.params (0xD5 :: e :: q)) (s.withDecoder d i n l f)) := by
  obtain ⟨-, -, hf, -⟩ := (memory_wf_iff s).1 hm
  obtain ⟨d, i, n, l, f, hrun⟩ := deliver_wireFrame s1 s2 (fd := Config.tfiIn :: e :: q) (by simp) (by simp; omega)
    hf hb hd hx
  rw [← frameBytes_eq_wireFrame] at hrun
  exact ⟨d, i, n, l, f, congrArg _ hrun⟩

/-- Settles O31: the frame's bytes bring the decoder to the end of a data frame, which is `DECODE`'s outcome, a match, a
skipped run or the last one. -/
theorem inboundFrameDelivered : Obligations.InboundFrameDelivered := by
  intro s s1 s2 e q hq hm hb hd hx
  obtain ⟨d, i, n, l, f, hexec⟩ := exec_frameInData s1 s2 e hq hm hb hd hx
  have hcmd := response_cmd_eq_iff s.params 0xD5 e s.wCmd q
  have hdel := endData_delivered (response s.params (0xD5 :: e :: q)) (s.withDecoder d i n l f)
  have hothers := endData_others (response s.params (0xD5 :: e :: q)) (s.withDecoder d i n l f)
  have hops : SameOperands s _ := sameOperands_of_others hothers
  have hstr : SameStreams s _ := sameStreams_of_others hothers
  have hag : SameAgents s _ := sameAgents_of_others hothers
  refine ⟨fun h => ⟨_, hexec, ?_, hdel, hops, hstr, hag⟩, fun h he => ⟨_, hexec, ?_, hdel, hops, hstr, hag⟩,
    fun h he hm => ⟨_, hexec, hdel, ?_⟩, fun h he hm => ⟨_, hexec, ?_, hdel, hops, hstr, hag⟩⟩
  · rw [endData_of_plain (s := s.withDecoder d i n l f) (ne_of_eq_of_ne h (by decide))]
    exact completed_of_params _ _ rfl
  · rw [endData_of_match (s := s.withDecoder d i n l f) h (hcmd.2 he)]
    exact completed_of_params _ _ rfl
  · rw [endData_of_other (s := s.withDecoder d i n l f) h (mt hcmd.1 he)] at hops hstr hag ⊢
    obtain ⟨hsync, hdemux, hout⟩ := nextRun_of_below
      (s := countRun (writeResult (response s.params (0xD5 :: e :: q)) (s.withDecoder d i n l f))) hm
    exact ⟨hdemux.xstate.trans h, hsync, hdemux.frames, hdemux.wCmd,
      ⟨hout.busy, hout.done, hout.rKind, hout.rErr⟩, hops, hstr, hag⟩
  · rw [endData_of_other (s := s.withDecoder d i n l f) h (mt hcmd.1 he), nextRun_of_bound hm]
    exact completed_of_params _ _ rfl

end Sys2Proof.Machine
end

/-! # Rows by themselves

Frame, classification and command-id rows as instructions (log entry 7), and encodings written out from the spec. -/

section
namespace Sys2Proof.Machine

/-- Settles O16: each word is decoded by evaluation. -/
theorem specWordsDecode : Obligations.SpecWordsDecode := by
  unfold Obligations.SpecWordsDecode
  decide

/-! ### Outbound frames -/

theorem exec_frameOutData_overlong {s : State} (c : Byte) {p : List Byte} (hp : 253 < p.length) :
    exec (.frameOutData c p) s = .next (complete .err .payload s) := if_pos hp

theorem exec_frameOutData {s : State} (c : Byte) {p : List Byte} (hp : p.length ≤ 253) :
    exec (.frameOutData c p) s = .next (writeFrame (decide (s.xstate = .send)) (encodeFrame c p) s) :=
  if_neg (Nat.not_lt.2 hp)

/-- What a frame write of which `out` has gone out leaves alone, whatever its end makes of the block's own registers. -/
theorem same_of_txFrame {s t : State} {f out : List Byte} (hh : t.hostData = s.hostData)
    (ho : t.others = (txFrame f s).others) (hout : f.take (sentCount f.length (nextTxEvent s)) = out) :
    SameOperands s t ∧ SameResults s t ∧ t.rx = s.rx ∧ t.tx = s.tx ++ out ∧ SameAgents s t := by
  obtain ⟨hp, hs, ha, hr⟩ := sameAgents_of_others ho
  obtain ⟨hrx, -, htx⟩ := sameStreams_of_others ho
  refine ⟨sameOperands_of_hostData hh, sameResults_of_hostData hh, hrx.trans (txFrame_rx s f), ?_,
    hp.trans (txFrame_params s f), hs.trans (txFrame_source s f), ha.trans (txFrame_agenda s f),
    hr.trans (txFrame_hostRead s f)⟩
  rw [htx, txFrame_tx, hout]

/-- An instruction that writes the frame `f` and completes; `out` is what has gone out. -/
theorem completes_of_sent {i : Instr} {k : Kind} {e : ErrCode} {s : State} {f out : List Byte}
    (h : exec i s = .next (complete k e (txFrame f s))) (hout : f.take (sentCount f.length (nextTxEvent s)) = out) :
    ∃ t, exec i s = .next t ∧ Completed k e s t ∧ SameOperands s t ∧ SameResults s t ∧ t.rx = s.rx ∧
      t.tx = s.tx ++ out ∧ SameAgents s t :=
  ⟨_, h, completed_of_params k e (txFrame_params s f), same_of_txFrame (txFrame_hostData f s) rfl hout⟩

/-- On `Ok` the whole frame has gone out (20_memory.md R57). -/
theorem take_sentCount_of_ok {s : State} (f : List Byte) (hn : nextTxEvent s = .answer .ok) :
    f.take (sentCount f.length (nextTxEvent s)) = f := by
  rw [hn]
  exact List.take_length

/-- The frame `f` has been written in the send phase of `SENDWAIT`, whose loop is to begin (43_dispatch.md R177). -/
def State.afterSend (s : State) (f : List Byte) : State := { txFrame f s with xstate := .wait }

section
variable (s : State) (f : List Byte)

theorem afterSend_sameOutcome : SameOutcome s (s.afterSend f) := by
  constructor <;> simp [State.afterSend]

theorem afterSend_hostData : (s.afterSend f).hostData = s.hostData := txFrame_hostData f s

theorem afterSend_params : (s.afterSend f).params = s.params := txFrame_params s f

theorem afterSend_wCmd : (s.afterSend f).wCmd = s.wCmd := txFrame_wCmd s f

theorem afterSend_frames : (s.afterSend f).frames = s.frames := txFrame_frames s f

end

theorem exec_frameOutData_send {s : State} (c : Byte) {p : List Byte} (hp : p.length ≤ 253) (hx : s.xstate = .send)
    (hn : nextTxEvent s = .answer .ok) :
    exec (.frameOutData c p) s = .next (nextRun (s.afterSend (encodeFrame c p))) := by
  rw [exec_frameOutData c hp, decide_eq_true hx, writeFrame_ok_true _ hn]
  rfl

/-- Settles O28: the write's end completes the operation, or in the send phase is followed by the turn of the loop. -/
theorem frameOutDataIsWritten : Obligations.FrameOutDataIsWritten := by
  intro s c p
  have hhost := (nextRun_hostData _).trans (afterSend_hostData s (encodeFrame c p))
  have hparams := afterSend_params s (encodeFrame c p)
  have hframes := afterSend_frames s (encodeFrame c p)
  refine ⟨fun hp hn hx => ?plain, fun hp hn hx hm => ?waits, fun hp hn hx hm => ?bound, fun hp n hn => ?fails,
    fun hp => ?overlong⟩
  case plain =>
    refine completes_of_sent ?_ (take_sentCount_of_ok _ hn)
    rw [exec_frameOutData c hp, decide_eq_false hx, writeFrame_ok_false _ hn]
  case waits =>
    rw [← hparams, ← hframes] at hm
    obtain ⟨hsync, hdemux, hout⟩ := nextRun_of_below hm
    exact ⟨_, exec_frameOutData_send c hp hx hn, hdemux.xstate, hsync, hdemux.wCmd.trans (afterSend_wCmd ..),
      hdemux.frames.trans hframes, (afterSend_sameOutcome ..).trans hout,
      same_of_txFrame hhost (nextRun_others _) (take_sentCount_of_ok _ hn)⟩
  case bound =>
    rw [← hparams, ← hframes] at hm
    refine ⟨_, exec_frameOutData_send c hp hx hn, ?_,
      same_of_txFrame hhost (nextRun_others _) (take_sentCount_of_ok _ hn)⟩
    rw [nextRun_of_bound hm]
    exact completed_of_params _ _ hparams
  case fails =>
    refine completes_of_sent ?_ (by rw [hn]; rfl)
    rw [exec_frameOutData c hp, writeFrame_fail _ _ n hn]
  case overlong => exact completes_of_exec (exec_frameOutData_overlong c hp)

/-! ### Rows of the classification -/

theorem applyRow_of_not_pending {s : State} {r : ClassRow} (h : pendingRow s ≠ some r) : applyRow r s = s := if_neg h

/-- Settles O40: a class row applies its row to the next event only. -/
theorem unmetRowDoesNothing : Obligations.UnmetRowDoesNothing := by
  intro s r h
  rw [exec_rowInstr, applyRow_of_not_pending h]

/-! ### Command ids -/

section
variable {p : Config.Params} {bearing : Bool} {c : Byte} {fd : List Byte}

theorem quirkLen_eq (basis : Config.Basis) (n : Nat) : quirkLen basis n = if basis = .a then n - 2 else n - 3 := by
  cases basis <;> rfl

/-- No status byte: every other command, or no byte after the echoed id. -/
theorem extract_of_plain (h : bearing = false ∨ fd.length ≤ 2) :
    extract p bearing c fd = ⟨c, p.statusSuccess, fd.drop 2⟩ := by
  have hn : ¬(bearing = true ∧ 2 < fd.length) := by
    rintro ⟨rfl, h2⟩
    simp [Nat.not_le.2 h2] at h
  exact if_neg hn

/-- The status byte is dropped from the data. -/
theorem extract_of_dropped (hb : bearing = true) (h2 : 2 < fd.length)
    (hq : fd.getD 2 0 = p.statusSuccess ∧ Config.quirkMin < quirkLen p.quirkBasis fd.length) :
    extract p bearing c fd = ⟨c, fd.getD 2 0, fd.drop 3⟩ :=
  (if_pos ⟨hb, h2⟩).trans (if_pos hq)

/-- The status byte stays at the front of the data. -/
theorem extract_of_kept (hb : bearing = true) (h2 : 2 < fd.length)
    (hq : ¬(fd.getD 2 0 = p.statusSuccess ∧ Config.quirkMin < quirkLen p.quirkBasis fd.length)) :
    extract p bearing c fd = ⟨c, fd.getD 2 0, fd.drop 2⟩ :=
  (if_pos ⟨hb, h2⟩).trans (if_neg hq)

/-- The response that the extraction makes is the answer of 41_decode.md R137 and R138. -/
theorem deliveredAs_of_extract {t : State} (h : Delivered (extract p bearing c fd) t) :
    DeliveredAs p bearing c fd t := by
  unfold DeliveredAs
  rw [← quirkLen_eq]
  refine ⟨fun hplain => ?_, fun hb h2 => ⟨fun hq => ?_, fun hq => ?_⟩⟩
  · exact extract_of_plain hplain ▸ h
  · exact extract_of_dropped hb h2 hq ▸ h
  · exact extract_of_kept hb h2 hq ▸ h

end

/-- Settles O41: outside the wait the delivery completes the operation, and the registers hold what the extraction
gives. -/
theorem statusBearingDelivery : Obligations.StatusBearingDelivery := by
  intro s i c hx hi
  have hexec : exec i s = .next (endData (extract s.params true c (frameData s)) s) := by
    obtain ⟨rfl, rfl⟩ | ⟨rfl, rfl⟩ := hi <;> rfl
  have hothers := endData_others (extract s.params true c (frameData s)) s
  obtain ⟨hplain, hstatus⟩ := deliveredAs_of_extract (endData_delivered (extract s.params true c (frameData s)) s)
  refine ⟨_, hexec, ?_, sameOperands_of_others hothers, sameStreams_of_others hothers, sameAgents_of_others hothers,
    fun h => hplain (.inr h), hstatus rfl⟩
  rw [endData_of_plain hx]
  exact completed_of_params _ _ rfl

end Sys2Proof.Machine
end

/-! # The encoder's frames

`EncodeFrame` byte by byte, its two checksum laws, and the operation that writes it (40_encode.md R110 to R115). -/

section
namespace Sys2Proof.Machine

/-! ### The checksums over the naturals -/

theorem sum8_toNat (bs : List Byte) : (sum8 bs).toNat = (bs.map BitVec.toNat).sum % 256 := by
  induction bs with
  | nil => rfl
  | cons b bs ih => simp [sum8, ih]

/-- The length byte and its checksum add up to a multiple of 256 (30_encoding.md R87). -/
theorem toNat_add_lcsOf_mod (len : Byte) : (len.toNat + (lcsOf len).toNat) % 256 = 0 := by
  have hgood : len + lcsOf len = 0 := eq_of_beq ((lcsGood_iff len _).2 rfl)
  exact (BitVec.toNat_add len _).symm.trans (congrArg BitVec.toNat hgood)

/-- So do the frame data and their checksum (R88). -/
theorem sum_add_dcsOf_mod (fd : List Byte) : ((fd.map BitVec.toNat).sum % 256 + (dcsOf fd).toNat) % 256 = 0 := by
  have hgood : sum8 fd + dcsOf fd = 0 := eq_of_beq ((dcsGood_iff fd _).2 rfl)
  rw [← sum8_toNat]
  exact (BitVec.toNat_add _ _).symm.trans (congrArg BitVec.toNat hgood)

theorem lcsOf_ofNat {n : Nat} (h : n ≤ 255) : lcsOf (BitVec.ofNat 8 n) = BitVec.ofNat 8 (256 - n) := by
  rw [lcsOf]
  bv_omega

/-- Where the sum is a multiple of 256 the checksum is 0x00, the low byte of 256 (R88). -/
theorem dcsOf_eq_ofNat (fd : List Byte) : dcsOf fd = BitVec.ofNat 8 (256 - (fd.map BitVec.toNat).sum % 256) := by
  have hsum := sum8_toNat fd
  rw [dcsOf]
  bv_omega

/-! ### `EncodeFrame` -/

/-- The frame data of an encoder frame: TFI, command id and payload (30_encoding.md R84). -/
theorem encodeFrame_eq_wireFrame (c : Byte) (p : List Byte) :
    encodeFrame c p = wireFrame Config.start1 Config.start2 (Config.tfiOut :: c :: p) :=
  frameBytes_eq_wireFrame ..

/-- Settles O24: each checksum byte has its form over the naturals; the other bytes are those of the frame's definition. -/
theorem encodeFrameLayout : Obligations.EncodeFrameLayout := by
  intro c p hp
  have hlcs : lcsOf (lenOf p.length) = BitVec.ofNat 8 (256 - (2 + p.length)) := lcsOf_ofNat (by omega)
  have hdcs := dcsOf_eq_ofNat (Config.tfiOut :: c :: p)
  rw [List.map_cons, List.map_cons, List.sum_cons, List.sum_cons, ← Nat.add_assoc] at hdcs
  rw [encodeFrame, frameBytes, hlcs, hdcs]
  rfl

/-! The bytes of a data frame by their positions (30_encoding.md R82). -/

theorem wireFrame_len (s1 s2 : Byte) {fd : List Byte} (h0 : 0 < fd.length) (h : fd.length ≤ 255) :
    ((wireFrame s1 s2 fd).getD 3 0).toNat = fd.length := (ofNat_toNat_and_ne_zero h0 h).1

theorem wireFrame_frameData (s1 s2 : Byte) (fd : List Byte) :
    ((wireFrame s1 s2 fd).drop 5).take fd.length = fd := List.take_left

theorem wireFrame_dcs (s1 s2 : Byte) (fd : List Byte) :
    (wireFrame s1 s2 fd).getD (5 + fd.length) 0 = dcsOf fd := by
  simp [wireFrame, Nat.add_comm 5]

/-- Settles O25: the frame data stand where the length byte says, with the checksum behind them. -/
theorem encoderChecksumLaws : Obligations.EncoderChecksumLaws := by
  intro c p hp
  rw [encodeFrame_eq_wireFrame]
  refine ⟨toNat_add_lcsOf_mod _, ?_⟩
  rw [wireFrame_len _ _ (by simp) (by simp; omega), wireFrame_frameData, wireFrame_dcs]
  exact sum_add_dcsOf_mod _

/-- The decoder reads the command id and the payload back (30_encoding.md R104). -/
theorem decodeFrame_encodeFrame (c : Byte) {p : List Byte} (hp : p.length ≤ 253) :
    decodeFrame (encodeFrame c p) = .ok (.frameOutData c p, []) := by
  have h := decodeFrame_frameBytes Config.start1 Config.start2 Config.tfiOut c hp []
  rwa [List.append_nil] at h

/-- Settles O26: equal frames decode to the same command id and payload. -/
theorem encodeFrameInjective : Obligations.EncodeFrameInjective := by
  intro c c' p p' hp hp' h
  have hdec := decodeFrame_encodeFrame c hp
  rw [h, decodeFrame_encodeFrame c' hp'] at hdec
  cases hdec
  exact ⟨rfl, rfl, encodeFrame_length c p⟩

/-! ### `ENCODE` -/

theorem exec_encode_overlong {s : State} (hp : 253 < s.cPlen.toNat) :
    exec .encode s = .next (complete .err .payload s) := if_pos hp

theorem exec_encode {s : State} (hp : s.cPlen.toNat ≤ 253) :
    exec .encode s = .next (writeFrame false (encodeFrame s.cCmd (payload s)) s) := if_neg (Nat.not_lt.2 hp)

/-- An instruction that writes the frame `f` and completes uses up one answer of the sink; `out` is what has gone out. -/
theorem completes_of_sent_txAns {i : Instr} {k : Kind} {e : ErrCode} {s : State} {f out : List Byte}
    (h : exec i s = .next (complete k e (txFrame f s))) (hout : f.take (sentCount f.length (nextTxEvent s)) = out) :
    ∃ t, exec i s = .next t ∧ Completed k e s t ∧ SameOperands s t ∧ SameResults s t ∧ t.rx = s.rx ∧
      t.tx = s.tx ++ out ∧ SameAgents s t ∧ t.txAns = s.txAns.tail := by
  obtain ⟨t, ht, hdone, hops, hres, hrx, htx, hagents⟩ := completes_of_sent h hout
  have heq : complete k e (txFrame f s) = t := Host.Outcome.next.inj (h.symm.trans ht)
  exact ⟨t, ht, hdone, hops, hres, hrx, htx, hagents, heq ▸ txFrame_txAns s f⟩

/-- A sink with no answer listed gives a free one (20_memory.md R57). -/
theorem nextTxEvent_of_unlisted {s : State} (h : s.txAns = []) :
    nextTxEvent s = .answer (Config.freeTxAnswer s.draws) := by
  simp [nextTxEvent, h]

/-- Settles O20: an over-long payload completes at once, and any other with the end of its frame's write. -/
theorem encodeWritesFrame : Obligations.EncodeWritesFrame := by
  intro s
  refine ⟨fun hp => ?overlong, fun hp hn => ?sent, fun hp n hn => ?fails, fun h => ⟨_, nextTxEvent_of_unlisted h⟩⟩
  case overlong =>
    exact ⟨_, exec_encode_overlong hp, complete_completed .., complete_sameOperands .., complete_sameResults ..,
      complete_sameStreams .., complete_sameAgents .., rfl⟩
  case sent =>
    refine completes_of_sent_txAns ?_ (take_sentCount_of_ok _ hn)
    rw [exec_encode hp, writeFrame_ok_false _ hn]
    rfl
  case fails =>
    refine completes_of_sent_txAns ?_ (by rw [hn]; rfl)
    rw [exec_encode hp, writeFrame_fail _ _ n hn]
    rfl

end Sys2Proof.Machine
end

/-! # Streams that fall silent

The machine on the events that wait, none coming after them, held against the procedure on those events (42_decode_fsm.md
R160). -/

section
namespace Sys2Proof.Machine

/-! ### Runs of steps -/

theorem run_add {s t : State} {m : Nat} (h : Host.Core.run core m s = .next t) (k : Nat) :
    Host.Core.run core (m + k) s = Host.Core.run core k t := by
  induction m generalizing s with
  | zero =>
    cases h
    rw [Nat.zero_add]
  | succ m ih =>
    rw [Nat.add_right_comm]
    cases hs : core.step s with
    | next u =>
      rw [run_succ_of_step hs] at h ⊢
      exact ih h
    | fault r | refused r => simp [Host.Core.run, hs] at h

theorem run_of_still {s : State} (h : step s = .next s) (k : Nat) : Host.Core.run core k s = .next s := by
  induction k with
  | zero => rfl
  | succ k ih => rw [run_succ_of_step h, ih]

/-! ### The machine follows the procedure to the end of the events -/

section
variable {s : State} {tx : List Byte} {x : XState} {slot : Option Response}

/-- Where the procedure ends on the events that wait, the machine takes the same events, one in each step, and ends in the
same way. -/
theorem GoesOn.run_of_ended {t : State} {W : List RxEvent → WaitResult} (h : GoesOn s tx x t W) {e : RunEnd}
    {rest : List RxEvent} (he : W t.rx = .ended e slot rest) :
    ∃ n t', t.rx.length = n + rest.length ∧ Host.Core.run core n t = .next t' ∧ t'.rx = rest ∧ t'.source = t.source ∧
      Finished s tx e slot t' := by
  cases h with
  | ended e' slot' hf hw =>
    obtain ⟨rfl, rfl, rfl⟩ : e' = e ∧ slot' = slot ∧ t.rx = rest := by simpa [hw] using he
    exact ⟨0, t, (Nat.zero_add _).symm, rfl, rfl, rfl, hf⟩
  | running slot' hr hw =>
    cases hx : t.rx with
    | nil => simp [hw, hx, expect, resume_nil hr.ok, afterRun] at he
    | cons ev evs =>
      obtain ⟨u, hstep, hux, hus, hg⟩ := hr.take hx
      rw [hw, hx, ← hux] at he
      obtain ⟨n, t', hlen, hrun, hrest, hsrc, hf⟩ := hg.run_of_ended he
      refine ⟨n + 1, t', ?_, (run_succ_of_step hstep n).trans hrun, hrest, hsrc.trans hus, hf⟩
      rw [List.length_cons, ← hux, hlen, Nat.add_right_comm]
termination_by t.rx.length
decreasing_by simp [hx, hux]

/-- Where the procedure hangs on the events that wait, the machine takes them all and its decoder waits. -/
theorem GoesOn.run_of_hang {t : State} {W : List RxEvent → WaitResult} (h : GoesOn s tx x t W)
    (he : W t.rx = .hang slot) :
    ∃ t', Host.Core.run core t.rx.length t = .next t' ∧ t'.rx = [] ∧ t'.source = t.source ∧ Runs s tx x slot t' := by
  cases h with
  | ended e slot' hf hw => simp [hw] at he
  | running slot' hr hw =>
    cases hx : t.rx with
    | nil =>
      obtain rfl : slot' = slot := by simpa [hw, hx, expect, resume_nil hr.ok, afterRun] using he
      exact ⟨t, rfl, hx, rfl, hr⟩
    | cons ev evs =>
      obtain ⟨u, hstep, hux, hus, hg⟩ := hr.take hx
      rw [hw, hx, ← hux] at he
      obtain ⟨t', hrun, hnil, hsrc, hr'⟩ := hg.run_of_hang he
      refine ⟨t', ?_, hnil, hsrc.trans hus, hr'⟩
      rw [List.length_cons, ← hux, run_succ_of_step hstep, hrun]
termination_by t.rx.length
decreasing_by simp [hx, hux]

end

/-- A decoder that waits at a silent source waits for ever (00_scope.md R12). -/
theorem Runs.run_of_silence {s t : State} {tx : List Byte} {x : XState} {slot : Option Response}
    (h : Runs s tx x slot t) (hx : t.rx = []) (hs : t.source = .silent) (k : Nat) : Host.Core.run core k t = .next t :=
  run_of_still (step_of_silence (.alone h.beside.agenda) h.busy h.running hx hs) k

/-! ### `DECODE` -/

/-- A `DECODE` that has been started and has made no step yet (20_memory.md R67). -/
structure DecodeStarted (s : State) : Prop where
  agenda : s.agenda = []
  busy : s.busy = true
  dstate : s.dstate = .idle
  xstate : s.xstate = .idle
  op : s.op = 2
  mem : Memory.wf s = true

/-- The decoder at its preamble scan, after the first step of `DECODE` (42_decode_fsm.md R151). -/
def State.scanning (s : State) : State := { s with dstate := .sync }

/-- How a `DECODE` ends whose decoder scans the events `evs`: as the procedure does, its own data frame being the one in
the result registers. -/
def decodeFrom (p : Config.Params) (evs : List RxEvent) : WaitResult :=
  match decodeRun p evs with
  | .hang => .hang none
  | .ended e rest => .ended e e.response rest

theorem decodeFrom_of_ended {p : Config.Params} {evs rest : List RxEvent} {e : RunEnd}
    (h : decodeRun p evs = .ended e rest) : decodeFrom p evs = .ended e e.response rest := by
  simp only [decodeFrom, h]

theorem decodeFrom_of_hang {p : Config.Params} {evs : List RxEvent} (h : decodeRun p evs = .hang) :
    decodeFrom p evs = .hang none := by
  simp only [decodeFrom, h]

theorem decodeFrom_response {p : Config.Params} {evs rest : List RxEvent} {e : RunEnd} {slot : Option Response}
    (h : decodeFrom p evs = .ended e slot rest) : slot = e.response := by
  unfold decodeFrom at h
  split at h <;> cases h
  rfl

/-- Outside the wait nothing follows a run. -/
theorem afterRun_decodeRun {s : State} (hx : s.xstate ≠ .wait) (evs : List RxEvent) :
    afterRun s none (decodeRun s.params evs) = decodeFrom s.params evs := by
  cases h : decodeRun s.params evs with
  | hang => exact (decodeFrom_of_hang h).symm
  | ended e rest => rw [afterRun_of_plain hx, decodeFrom_of_ended h]

section
variable {s : State}

theorem DecodeStarted.step_eq (h : DecodeStarted s) : step s = .next s.scanning := by
  have hop : decodeOp s.op = .decode := by rw [h.op]; rfl
  rw [step_of_started (.alone h.agenda) h.busy h.dstate h.xstate, hop]
  rfl

theorem DecodeStarted.goesOn (h : DecodeStarted s) : GoesOn s s.tx .idle s.scanning (decodeFrom s.params) := by
  obtain ⟨-, -, hf, -⟩ := (memory_wf_iff s).1 h.mem
  refine .running none ⟨⟨h.agenda, rfl, ⟨rfl, rfl, rfl, rfl⟩, rfl⟩, h.busy, nofun, ⟨hf, nofun, nofun⟩, h.xstate,
    ⟨fun _ => ⟨rfl, rfl, rfl, rfl, rfl⟩, nofun⟩, fun _ => rfl⟩ fun evs => ?_
  have hplain : s.scanning.xstate ≠ .wait := ne_of_eq_of_ne h.xstate (by decide)
  rw [expect, resume_sync rfl, afterRun_decodeRun hplain]
  rfl

/-- A `DECODE` whose procedure ends on the events that wait takes the first step and one step for each event, and ends as
the procedure does. -/
theorem DecodeStarted.run_of_ended (h : DecodeStarted s) {e : RunEnd} {rest : List RxEvent}
    (he : decodeRun s.params s.rx = .ended e rest) :
    ∃ t, Host.Core.run core (1 + (s.rx.length - rest.length)) s = .next t ∧ t.rx = rest ∧ t.source = s.source ∧
      Finished s s.tx e e.response t := by
  obtain ⟨n, t, hlen, hrun, hrest, hsrc, hf⟩ := h.goesOn.run_of_ended (decodeFrom_of_ended he)
  have hn : s.rx.length - rest.length = n := Nat.sub_eq_of_eq_add hlen
  refine ⟨t, ?_, hrest, hsrc, hf⟩
  rw [hn, Nat.add_comm 1, run_succ_of_step h.step_eq, hrun]

/-- A `DECODE` whose procedure hangs on the events that wait takes them all, and then waits at a silent source. -/
theorem DecodeStarted.run_of_hang (h : DecodeStarted s) (he : decodeRun s.params s.rx = .hang)
    (hs : s.source = .silent) (k : Nat) :
    ∃ t, Host.Core.run core (1 + s.rx.length + k) s = .next t ∧ t.rx = [] ∧ Runs s s.tx .idle none t := by
  obtain ⟨t, hrun, hnil, hsrc, hr⟩ := h.goesOn.run_of_hang (decodeFrom_of_hang he)
  refine ⟨t, ?_, hnil, hr⟩
  have hall : Host.Core.run core (s.rx.length + 1) s = .next t := (run_succ_of_step h.step_eq _).trans hrun
  rw [Nat.add_comm 1, run_add hall, hr.run_of_silence hnil (hsrc.trans hs)]

end

/-- Settles O52: the machine follows the procedure to its end, or to the end of the events. -/
theorem decoderRefinesProcedure : Obligations.DecoderRefinesProcedure := by
  intro s ha hb hd hx ho hm
  have hstart : DecodeStarted s := ⟨ha, hb, hd, hx, ho, hm⟩
  cases he : decodeRun s.params s.rx with
  | ended e rest =>
    obtain ⟨t, hrun, hrest, hsrc, hf⟩ := hstart.run_of_ended he
    refine ⟨t, hrun, hrest, hf.beside.tx, hsrc, hf.beside.operands, ?_⟩
    cases e with
    | ack => exact ⟨hf.completed, hf.holds.same rfl⟩
    | data r => exact ⟨hf.completed, hf.holds.delivered r rfl⟩
    | err c => exact ⟨hf.completed, hf.holds.same rfl⟩
  | hang =>
    intro hs k
    obtain ⟨t, hrun, hnil, hr⟩ := hstart.run_of_hang he hs k
    exact ⟨t, hrun, hr.busy, hnil, hr.beside.tx, hr.holds.same rfl⟩

end Sys2Proof.Machine
end

/-! # What a `DECODE` depends on

Of a running `DECODE`, the procedure's rest and the RX stream say all that follows (41_decode.md R143). -/

section
namespace Sys2Proof.Machine

def WaitResult.isHang : WaitResult → Bool
  | .hang _ => true
  | .ended _ _ _ => false

section
variable {s t : State} {tx : List Byte} {x : XState} {W : List RxEvent → WaitResult}

/-- An operation is busy exactly where its rest has not ended yet. -/
theorem GoesOn.busy_eq (h : GoesOn s tx x t W) : t.busy = (W []).isHang := by
  cases h with
  | running slot hr hw => simp [hr.busy, hw, expect, resume_nil hr.ok, afterRun, WaitResult.isHang]
  | ended e slot hf hw => simp [hf.completed.notBusy, hw, WaitResult.isHang]

theorem GoesOn.finished (h : GoesOn s tx x t W) (hb : t.busy = false) :
    ∃ e slot, Finished s tx e slot t ∧ ∀ evs, W evs = .ended e slot evs := by
  cases h with
  | running slot hr hw => simp [hr.busy] at hb
  | ended e slot hf hw => exact ⟨e, slot, hf, hw⟩

end

/-- What of a running operation its further steps depend on: what is left of the procedure, the events that wait, and how
the stream goes on after them. -/
structure Outlook where
  left : List RxEvent → WaitResult
  rx : List RxEvent
  source : RxSource

/-- The outlook after one step: an operation that goes on takes an event, or an endless source gives one. -/
def Outlook.next (o : Outlook) : Outlook :=
  if (o.left []).isHang then
    match o.rx, o.source with
    | e :: rest, _ => { o with left := fun evs => o.left (e :: evs), rx := rest }
    | [], .endless k => { o with rx := [Config.freeRxEvent k], source := .endless (k + 1) }
    | [], .silent => o
  else o

/-- `t` is a state of the `DECODE` started in `s`, and its outlook is `o`. -/
structure DecodeAt (s : State) (o : Outlook) (t : State) : Prop where
  goesOn : GoesOn s s.tx .idle t o.left
  rx : t.rx = o.rx
  source : t.source = o.source
  response : ∀ evs e slot rest, o.left evs = .ended e slot rest → slot = e.response

section
variable {s s' t t' : State} {o : Outlook}

theorem DecodeStarted.decodeAt (h : DecodeStarted s) :
    DecodeAt s ⟨decodeFrom s.params, s.rx, s.source⟩ s.scanning :=
  ⟨h.goesOn, rfl, rfl, fun _ _ _ _ => decodeFrom_response⟩

/-- A step leads to the next outlook. -/
theorem DecodeAt.step (h : DecodeAt s o t) : ∃ u, step t = .next u ∧ DecodeAt s o.next u := by
  obtain ⟨hg, hx, hs, hown⟩ := h
  have hbusy := hg.busy_eq
  cases hg with
  | ended e slot hf hw =>
    have ho : o.next = o := by simp [Outlook.next, hw, WaitResult.isHang]
    rw [ho]
    exact ⟨t, step_of_not_busy (.alone hf.beside.agenda) hf.completed.notBusy, .ended e slot hf hw, hx, hs, hown⟩
  | running slot hr hw =>
    have hm : BlockMoves t t := .alone hr.beside.agenda
    rw [hr.busy] at hbusy
    unfold Outlook.next
    rw [if_pos hbusy.symm]
    split
    next e rest hox =>
      obtain ⟨u, hstep, hux, hus, hgu⟩ := hr.take (hx.trans hox)
      refine ⟨u, hstep, ?_, hux, hus.trans hs, fun evs => hown (e :: evs)⟩
      simpa only [hw] using hgu
    next k hox hos =>
      refine ⟨_, step_of_endless hm hr.busy hr.running (hx.trans hox) (hs.trans hos), ?_, rfl, rfl, hown⟩
      exact .running slot (hr.answered k) fun evs => by rw [hw, expect_answered]
    next hox hos =>
      exact ⟨t, step_of_silence hm hr.busy hr.running (hx.trans hox) (hs.trans hos), .running slot hr hw, hx, hs, hown⟩

theorem DecodeAt.run (h : DecodeAt s o t) (k : Nat) :
    ∃ u, Host.Core.run core k t = .next u ∧ DecodeAt s (Outlook.next^[k] o) u := by
  induction k generalizing o t with
  | zero => exact ⟨t, rfl, h⟩
  | succ k ih =>
    obtain ⟨u, hstep, hu⟩ := h.step
    rw [run_succ_of_step hstep]
    exact ih hu

theorem Delivered.take_rData {r : Response} (h : Delivered r t) {n : Nat} (hn : n ≤ r.data.length) :
    t.rData.take n = r.data.take n := by
  rw [← h.rData, List.take_take, Nat.min_eq_left hn]

/-- Two deliveries of one response agree on what the host can rely on (10_state.md R32). -/
theorem Delivered.agree {r : Response} (h : Delivered r t) (h' : Delivered r t') :
    t'.rCmd = t.rCmd ∧ t'.rStatus = t.rStatus ∧ t'.rLen = t.rLen ∧
      t'.rData.take t.rLen.toNat = t.rData.take t.rLen.toNat := by
  have hle : t.rLen.toNat ≤ r.data.length := by
    rw [h.rLen, BitVec.toNat_ofNat]
    exact Nat.mod_le _ _
  exact ⟨h'.rCmd.trans h.rCmd.symm, h'.rStatus.trans h.rStatus.symm, h'.rLen.trans h.rLen.symm,
    (h'.take_rData hle).trans (h.take_rData hle).symm⟩

/-- Two `DECODE`s with one outlook have the same outcome. -/
theorem DecodeAt.agree (h : DecodeAt s o t) (h' : DecodeAt s' o t') :
    t'.busy = t.busy ∧ t'.rx = t.rx ∧ t'.source = t.source ∧
      (t.busy = false → t'.rKind = t.rKind ∧ t'.rErr = t.rErr ∧
        (t.rKind = .data → t'.rCmd = t.rCmd ∧ t'.rStatus = t.rStatus ∧ t'.rLen = t.rLen ∧
          t'.rData.take t.rLen.toNat = t.rData.take t.rLen.toNat)) := by
  have hbusy : t'.busy = t.busy := h'.goesOn.busy_eq.trans h.goesOn.busy_eq.symm
  refine ⟨hbusy, h'.rx.trans h.rx.symm, h'.source.trans h.source.symm, fun hb => ?_⟩
  obtain ⟨e, slot, hf, hw⟩ := h.goesOn.finished hb
  obtain ⟨e', slot', hf', hw'⟩ := h'.goesOn.finished (hbusy.trans hb)
  obtain ⟨rfl, rfl⟩ : e' = e ∧ slot' = slot := by simpa [hw] using (hw' []).symm
  have hkind := hf.completed.kind
  refine ⟨hf'.completed.kind.trans hkind.symm, hf'.completed.code.trans hf.completed.code.symm, fun hd => ?_⟩
  obtain rfl := h.response _ _ _ _ (hw [])
  cases e' with
  | data r => exact (hf.holds.delivered r rfl).agree (hf'.holds.delivered r rfl)
  | ack | err c => cases hkind.symm.trans hd

end

/-- Settles O54: after the first step both have the same outlook, and every step keeps it so. -/
theorem decodeHasNoMemory : Obligations.DecodeHasNoMemory := by
  intro s s' ha hb hd hx ho hm ha' hb' hd' hx' ho' hm' hp hrx hsrc k
  have hs : DecodeStarted s := ⟨ha, hb, hd, hx, ho, hm⟩
  have hs' : DecodeStarted s' := ⟨ha', hb', hd', hx', ho', hm'⟩
  cases k with
  | zero => exact ⟨s, s', rfl, rfl, hb'.trans hb.symm, hrx, hsrc, fun h => by simp [hb] at h⟩
  | succ k =>
    have hat' := hs'.decodeAt
    rw [hp, hrx, hsrc] at hat'
    obtain ⟨t, hrun, ht⟩ := hs.decodeAt.run k
    obtain ⟨t', hrun', ht'⟩ := hat'.run k
    rw [run_succ_of_step hs.step_eq, run_succ_of_step hs'.step_eq]
    exact ⟨t, t', hrun, hrun', ht.agree ht'⟩

end Sys2Proof.Machine
end

/-! # The response round trip

A response frame behind noise is read as the device sent it (41_decode.md R141, R142). -/

section
namespace Sys2Proof.Machine

/-- The scan discards the bytes before the first 0x00 (41_decode.md R127). -/
theorem decodeRun_noise (p : Config.Params) {noise : List Byte} (h : ∀ b ∈ noise, b ≠ 0) (evs : List RxEvent) :
    decodeRun p (noise.map .byte ++ evs) = decodeRun p evs := by
  have hscan : rxScan (noise.map .byte ++ evs) = rxScan evs := by
    induction noise with
    | nil => rfl
    | cons b noise ih =>
      obtain ⟨hb, hrest⟩ := List.forall_mem_cons.1 h
      exact (if_neg hb).trans (ih hrest)
  rw [decodeRun, hscan, decodeRun]

theorem classifyFrame_inbound (p : Config.Params) (e : Byte) (q : List Byte) :
    classifyFrame p (Config.tfiIn :: e :: q) = .data (response p (Config.tfiIn :: e :: q)) := by
  simp [classifyFrame]

/-- The procedure reads `RESP(c, Q)` behind noise and leaves the events after it (41_decode.md R141). -/
theorem decodeRun_response (p : Config.Params) {noise : List Byte} (h : ∀ b ∈ noise, b ≠ 0) (s1 s2 e : Byte)
    {q : List Byte} (hq : q.length ≤ 253) (more : List RxEvent) :
    decodeRun p ((noise ++ frameBytes s1 s2 Config.tfiIn e q).map .byte ++ more) =
      .ended (.data (response p (Config.tfiIn :: e :: q))) more := by
  rw [List.map_append, List.append_assoc, decodeRun_noise p h, frameBytes_eq_wireFrame,
    decodeRun_wireFrame p s1 s2 (by simp) (by simp; omega), classifyFrame_inbound]

theorem statusBearing_iff (thru c : Byte) : statusBearing thru c = true ↔ c = 0x40 ∨ c = thru := by
  simp [statusBearing, Config.cmdDataExchange]

/-- The command id is recovered from the echoed one (30_encoding.md R89). -/
theorem response_echo (p : Config.Params) (t c : Byte) (q : List Byte) :
    response p (t :: (c + 1) :: q) = extract p (statusBearing p.cmdCommThru c) c (t :: (c + 1) :: q) := by
  have hc : recoveredCmd (t :: (c + 1) :: q) = c := BitVec.add_sub_cancel c 1
  rw [response, hc]

/-- Settles O55: the procedure reads the frame behind the noise, and the machine agrees with the procedure. -/
theorem responseRoundTrip : Obligations.ResponseRoundTrip := by
  intro s noise c q more ha hb hd hx ho hm hnoise hq hrx
  have hend := decodeRun_response s.params hnoise 0x00 0xFF (c + 1) hq more
  obtain ⟨t, hrun, hrest, hsrc, hf⟩ :=
    DecodeStarted.run_of_ended ⟨ha, hb, hd, hx, ho, hm⟩ (hrx ▸ hend)
  have hlen : s.rx.length - more.length = noise.length + 9 + q.length := by
    simp only [hrx, List.length_append, List.length_map, Laws.EncodingSize.frameBytes_length]
    omega
  rw [hlen] at hrun
  have hdel := hf.holds.delivered _ rfl
  rw [response_echo] at hdel
  obtain ⟨hplain, hstatus⟩ := deliveredAs_of_extract hdel
  have hbearing := statusBearing_iff s.params.cmdCommThru c
  refine ⟨t, hrun, hf.completed, hrest, hsrc, hf.beside.tx, hf.beside.operands, fun h => hplain ?_,
    fun st q' hc hst => ?_⟩
  · refine h.imp (fun hn => Bool.eq_false_of_not_eq_true (mt hbearing.1 hn)) ?_
    rintro rfl
    exact le_rfl
  · subst hst
    exact hstatus (hbearing.2 hc) (by simp)

end Sys2Proof.Machine
end

/-! # The events a decode run consumes

`DECODE`'s procedure from its last read back to its first (41_decode.md R125, R140). -/

section
namespace Sys2Proof.Machine

/-! ### The reads -/

/-- The events `evs` are bytes up to a read failure, behind which `rest` is left. -/
def Broken (evs rest : List RxEvent) : Prop := ∃ taken : List Byte, evs = taken.map .byte ++ .err :: rest

section
variable {evs rest : List RxEvent}

theorem Broken.behind (h : Broken evs rest) (bs : List Byte) : Broken (bs.map .byte ++ evs) rest := by
  obtain ⟨taken, rfl⟩ := h
  exact ⟨bs ++ taken, by simp⟩

theorem Broken.behind_byte (h : Broken evs rest) (b : Byte) : Broken (.byte b :: evs) rest := h.behind [b]

theorem broken_err (rest : List RxEvent) : Broken (.err :: rest) rest := ⟨[], rfl⟩

/-- A read is followed by what comes next, or its failure ends the run (41_decode.md R126). -/
theorem andThen_ended {α : Type} {r : Read α} {k : α → List RxEvent → RunResult} {e : RunEnd}
    (h : r.andThen k = .ended e rest) :
    (∃ a left, r = .ok a left ∧ k a left = .ended e rest) ∨ (e = .err .rx ∧ r = .err rest) := by
  cases r with
  | ok a left => exact .inl ⟨a, left, rfl, h⟩
  | err left =>
    cases h
    exact .inr ⟨rfl, rfl⟩
  | hang => cases h

theorem rxByte_ok {b : Byte} (h : rxByte evs = .ok b rest) : evs = .byte b :: rest := by
  unfold rxByte at h
  split at h <;> cases h
  rfl

theorem rxByte_err (h : rxByte evs = .err rest) : evs = .err :: rest := by
  unfold rxByte at h
  split at h <;> cases h
  rfl

theorem rxExact_ok {n : Nat} {bs : List Byte} (h : rxExact n evs = .ok bs rest) :
    bs.length = n ∧ evs = bs.map .byte ++ rest := by
  induction n generalizing evs bs with
  | zero =>
    cases h
    exact ⟨rfl, rfl⟩
  | succ n ih =>
    unfold rxExact at h
    split at h <;> [cases h; cases h; skip]
    next b left hb =>
      split at h <;> cases h
      next bs hn =>
        obtain ⟨hlen, rfl⟩ := ih hn
        exact ⟨congrArg (· + 1) hlen, rxByte_ok hb⟩

theorem rxExact_err {n : Nat} (h : rxExact n evs = .err rest) : Broken evs rest := by
  induction n generalizing evs with
  | zero => cases h
  | succ n ih =>
    unfold rxExact at h
    split at h
    next left hb =>
      cases h
      exact rxByte_err hb ▸ broken_err rest
    next => cases h
    next b left hb =>
      split at h <;> cases h
      next hn => exact rxByte_ok hb ▸ (ih hn).behind_byte b

/-- The scan discards what is not 0x00 and takes one 0x00 (41_decode.md R127). -/
theorem rxScan_ok (h : rxScan evs = .ok () rest) :
    ∃ noise : List Byte, (∀ b ∈ noise, b ≠ 0) ∧ evs = noise.map .byte ++ .byte 0 :: rest := by
  induction evs with
  | nil => cases h
  | cons e evs ih =>
    cases e with
    | err => cases h
    | byte b =>
      unfold rxScan at h
      split at h
      next hb =>
        cases h
        exact ⟨[], nofun, by rw [hb]; rfl⟩
      next hb =>
        obtain ⟨noise, hnoise, rfl⟩ := ih h
        exact ⟨b :: noise, List.forall_mem_cons.2 ⟨hb, hnoise⟩, rfl⟩

theorem rxScan_err (h : rxScan evs = .err rest) : Broken evs rest := by
  induction evs with
  | nil => cases h
  | cons e evs ih =>
    cases e with
    | err =>
      cases h
      exact broken_err rest
    | byte b =>
      unfold rxScan at h
      split at h
      · cases h
      · exact (ih h).behind_byte b

/-! ### What follows the body -/

/-- How many events behind the body a run that ends with `e` has taken: the data checksum, unless `LEN = 0`, and the
postamble, as far as the tests before them let it come. -/
def tailLength (len : Byte) : RunEnd → Nat
  | .ack => 1
  | .data _ => 2
  | .err .lcs => 0
  | .err .dcs => 1
  | .err .postamble => if len = 0 then 1 else 2
  | .err _ => 2

/-- A run that ends with `e` has taken the events of `evs` up to `rest` behind the body: it met a read failure, or it took
the bytes that its end says. -/
def TakesTail (len : Byte) (evs rest : List RxEvent) (e : RunEnd) : Prop :=
  (e = .err .rx ∧ Broken evs rest) ∨
    (e ≠ .err .rx ∧ (e = .ack → len = 0) ∧ (e = .err .dcs → len ≠ 0) ∧
      ∃ taken : List Byte, evs = taken.map .byte ++ rest ∧ taken.length = tailLength len e)

variable {p : Config.Params} {len : Byte} {fd : List Byte} {e : RunEnd}

/-- A whole frame is an acknowledgement exactly if `LEN = 0`; else it ends with its data, or with one of the last two
errors. -/
theorem classifyFrame_cases (p : Config.Params) (fd : List Byte) :
    (fd.length = 0 ∧ classifyFrame p fd = .ack) ∨
      (fd.length ≠ 0 ∧ (classifyFrame p fd = .err .direction ∨ classifyFrame p fd = .err .frameLen ∨
        classifyFrame p fd = .data (response p fd))) := by
  unfold classifyFrame
  split_ifs <;> simp_all

theorem readPost_ended (h : readPost p fd evs = .ended e rest) :
    (e = .err .rx ∧ Broken evs rest) ∨
      ∃ b : Byte, evs = .byte b :: rest ∧ (e = .err .postamble ∨ e = classifyFrame p fd) := by
  obtain ⟨b, left, hb, h⟩ | ⟨rfl, hb⟩ := andThen_ended h
  · refine .inr ⟨b, ?_⟩
    split at h <;> cases h
    · exact ⟨rxByte_ok hb, .inl rfl⟩
    · exact ⟨rxByte_ok hb, .inr rfl⟩
  · exact .inl ⟨rfl, rxByte_err hb ▸ broken_err rest⟩

/-- With `LEN = 0` the postamble is next (41_decode.md R132). -/
theorem readPost_takesTail (hfd : fd.length = 0) (h : readPost p fd evs = .ended e rest) : TakesTail 0 evs rest e := by
  obtain hbroken | ⟨b, rfl, he⟩ := readPost_ended h
  · exact .inl hbroken
  · obtain ⟨-, hack⟩ | ⟨hne, -⟩ := classifyFrame_cases p fd
    · rw [hack] at he
      obtain rfl | rfl := he <;> exact .inr ⟨nofun, fun _ => rfl, nofun, [b], rfl, rfl⟩
    · exact absurd hfd hne

/-- With `LEN > 0` the data checksum and then the postamble are next (41_decode.md R132, R133). -/
theorem dcsRun_takesTail (hfd : fd.length ≠ 0) (hlen : len ≠ 0) (h : dcsRun p fd evs = .ended e rest) :
    TakesTail len evs rest e := by
  obtain ⟨d, left, hd, h⟩ | ⟨rfl, hd⟩ := andThen_ended h
  · rw [rxByte_ok hd]
    split at h
    · cases h
      exact .inr ⟨nofun, nofun, fun _ => hlen, [d], rfl, rfl⟩
    · obtain ⟨rfl, hbroken⟩ | ⟨b, rfl, he⟩ := readPost_ended h
      · exact .inl ⟨rfl, hbroken.behind_byte d⟩
      · obtain ⟨h0, -⟩ | ⟨-, hc⟩ := classifyFrame_cases p fd
        · exact absurd h0 hfd
        · have htwo : e ≠ .err .rx ∧ e ≠ .ack ∧ e ≠ .err .dcs ∧ tailLength len e = 2 := by
            obtain rfl | rfl := he
            · exact ⟨nofun, nofun, nofun, if_neg hlen⟩
            · obtain hc | hc | hc := hc <;> simp [hc, tailLength]
          obtain ⟨hrx, hack, hdcs, htail⟩ := htwo
          exact .inr ⟨hrx, fun h => absurd h hack, fun h => absurd h hdcs, [d, b], rfl, htail.symm⟩
  · exact .inl ⟨rfl, rxByte_err hd ▸ broken_err rest⟩

theorem checkBody_takesTail {lcs : Byte} (hfd : fd.length = len.toNat) (h : checkBody p len lcs fd evs = .ended e rest) :
    TakesTail len evs rest e := by
  by_cases hg : lcsGood len lcs = true
  · rw [checkBody_good fd evs hg] at h
    split at h
    next hlen =>
      subst hlen
      exact readPost_takesTail hfd h
    next hlen =>
      have hne : fd.length ≠ 0 := fun h0 => hlen (BitVec.eq_of_toNat_eq (hfd.symm.trans h0))
      exact dcsRun_takesTail hne hlen h
  · rw [checkBody_bad fd evs (Bool.eq_false_of_not_eq_true hg)] at h
    cases h
    exact .inr ⟨nofun, nofun, nofun, [], rfl, rfl⟩

/-! ### The whole run -/

/-- The bytes of a frame up to its length byte, behind the scan's noise (41_decode.md R125, steps 1 and 2). -/
def headBytes (noise : List Byte) (s1 s2 len : Byte) : List Byte := noise ++ [0, s1, s2, len]

/-- A run that ends meets a read failure before its length checksum's test, or has then read the whole body. -/
theorem decodeRun_ended (h : decodeRun p evs = .ended e rest) :
    (e = .err .rx ∧ Broken evs rest) ∨
      ∃ (noise : List Byte) (s1 s2 len lcs : Byte) (fd : List Byte) (left : List RxEvent), (∀ b ∈ noise, b ≠ 0) ∧
        fd.length = len.toNat ∧ evs = (headBytes noise s1 s2 len ++ lcs :: fd).map .byte ++ left ∧
        checkBody p len lcs fd left = .ended e rest := by
  obtain ⟨_, left₁, hscan, h₁⟩ | ⟨rfl, hscan⟩ := andThen_ended h
  swap
  · exact .inl ⟨rfl, rxScan_err hscan⟩
  obtain ⟨noise, hnoise, rfl⟩ := rxScan_ok hscan
  obtain ⟨head, left₂, hhead, h₂⟩ | ⟨rfl, hhead⟩ := andThen_ended h₁
  swap
  · exact .inl ⟨rfl, ((rxExact_err hhead).behind_byte 0).behind noise⟩
  obtain ⟨hlen, rfl⟩ := rxExact_ok hhead
  obtain ⟨s1, s2, len, rfl⟩ := List.length_eq_three.1 hlen
  obtain ⟨body, left₃, hbody, h₃⟩ | ⟨rfl, hbody⟩ := andThen_ended h₂
  swap
  · exact .inl ⟨rfl, (((rxExact_err hbody).behind [s1, s2, len]).behind_byte 0).behind noise⟩
  obtain ⟨hbodyLen, rfl⟩ := rxExact_ok hbody
  obtain ⟨lcs, fd, rfl⟩ := List.exists_cons_of_length_eq_add_one hbodyLen
  exact .inr ⟨noise, s1, s2, len, lcs, fd, left₃, hnoise, Nat.succ.inj hbodyLen, by simp [headBytes], h₃⟩

end

/-- Settles O51: the head and the body are read whole, and the run's end says what it takes behind them. -/
theorem decodeConsumesFrame : Obligations.DecodeConsumesFrame := by
  intro p evs rest e h
  obtain hbroken | ⟨noise, s1, s2, len, lcs, fd, left, hnoise, hfd, rfl, hcheck⟩ := decodeRun_ended h
  · exact .inl hbroken
  obtain ⟨rfl, hbroken⟩ | ⟨hrx, hack, hdcs, tail, rfl, htail⟩ := checkBody_takesTail hfd hcheck
  · exact .inl ⟨rfl, hbroken.behind _⟩
  · refine .inr ⟨hrx, noise, s1, s2, len, lcs :: fd ++ tail, hnoise, hack, hdcs, by simp [headBytes], ?_⟩
    have htaken : (lcs :: fd ++ tail).length = 1 + len.toNat + tailLength len e := by
      simp [hfd, htail]
      omega
    rw [htaken]
    cases e with
    | ack =>
      obtain rfl := hack rfl
      rfl
    | data r =>
      simp only [tailLength]
      omega
    | err c =>
      cases c with
      | postamble =>
        by_cases hlen : len = 0
        · subst hlen
          rfl
        · simp only [tailLength, if_neg hlen]
          omega
      | none | tx | rx | lcs | dcs | direction | frameLen | payload | timeout | badOp =>
        simp only [tailLength]
        omega

end Sys2Proof.Machine
end

/-! # The row that the next event meets

The instructions of the classification where the next event meets their row (30_encoding.md R94), and the command-id rows
and the row `DATA`, which deliver the frame in the decoder (41_decode.md R137 to R139). -/

section
namespace Sys2Proof.Machine

/-- `s` with other events waiting. -/
def State.withRx (s : State) (l : List RxEvent) : State := { s with rx := l }

/-! ### The row and its outcome -/

section
variable {s : State} {b : Byte} {rest : List RxEvent}

theorem exec_rowInstr_of_event {e : RxEvent} {r : ClassRow} (hb : s.busy = true) (hd : s.dstate ≠ .idle)
    (hx : s.rx = e :: rest) (hv : verdict s e = some r) : exec (rowInstr r) s = .next (rowOutcome r (s.withRx rest)) := by
  have hc : consume s = s.withRx rest := by simp [consume, hx, State.withRx]
  rw [exec_rowInstr, applyRow_of_pending ((pendingRow_of_event hb hd hx).trans hv), hc]

/-- A row that is an error completes the operation with it, its event being consumed (60_exceptions.md R215). -/
theorem raises_of_verdict {e : RxEvent} {r : ClassRow} {c : ErrCode} (hb : s.busy = true) (hd : s.dstate ≠ .idle)
    (hx : s.rx = e :: rest) (hv : verdict s e = some r) (hr : rowEnd (s.withRx rest) r = .err c) :
    ∃ t, exec (rowInstr r) s = .next t ∧ Completed .err c s t ∧ t.rx = rest ∧ t.tx = s.tx ∧ SameOperands s t ∧
      SameResults s t ∧ SameAgents s t := by
  have hexec := exec_rowInstr_of_event hb hd hx hv
  rw [rowOutcome_eq_endRun, hr] at hexec
  exact ⟨_, hexec, completed_of_params (t := s.withRx rest) .err c rfl, rfl, rfl, ⟨rfl, rfl, rfl, rfl⟩,
    ⟨rfl, rfl, rfl, rfl, rfl⟩, ⟨rfl, rfl, rfl, rfl⟩⟩

/-- The event in the postamble position meets a row in every case (42_decode_fsm.md R158). -/
theorem verdict_post_eq {r : ClassRow} (hd : s.dstate = .post) (hr : classifyAtPost b s = r) :
    verdict s (.byte b) = some r := by rw [verdict_post hd, hr]

theorem classifyAtPost_bad (h : b ≠ 0) : classifyAtPost b s = .row4 := if_pos h

theorem classifyAtPost_ack (hl : s.len = 0) : classifyAtPost 0 s = .row5 :=
  (if_neg (by decide)).trans (if_pos hl)

theorem classifyAtPost_direction (hl : s.len ≠ 0) (ht : s.fd.getD 0 0 ≠ 0xD5) : classifyAtPost 0 s = .row6 :=
  (if_neg (by decide)).trans ((if_neg hl).trans (if_pos ht))

/-- An inbound frame with `LEN > 0` is too short or has data (41_decode.md R136). -/
theorem classifyAtPost_inbound (hl : s.len ≠ 0) (ht : s.fd.getD 0 0 = 0xD5) :
    classifyAtPost 0 s = if s.len.toNat < 2 then .row7 else .row8 :=
  (if_neg (by decide)).trans ((if_neg hl).trans (if_neg (not_not_intro ht)))

end

/-- Settles O33: the last body byte meets row 2. -/
theorem classTwoRaisesLcs : Obligations.ClassTwoRaisesLcs := by
  intro s b rest hb hd hx hlast hsum
  refine raises_of_verdict hb (ne_of_eq_of_ne hd (by decide)) hx (r := .row2) ?_ rfl
  have hbad : ¬lcsGood s.len (storeBody b s).lcs = true := by
    rw [storeBody_lcs]
    exact mt eq_of_beq hsum
  rw [verdict_body_last hd hlast.not_lt, if_neg hbad]

/-- Settles O34: the data checksum meets row 3. -/
theorem classThreeRaisesDcs : Obligations.ClassThreeRaisesDcs := by
  intro s b rest hb hd hx hsum
  refine raises_of_verdict hb (ne_of_eq_of_ne hd (by decide)) hx (r := .row3) ?_ rfl
  have hbad : ¬dcsGood (frameData s) b = true := mt eq_of_beq hsum
  rw [verdict_dcs hd, if_neg hbad]

/-- Settles O35: the postamble meets row 4. -/
theorem classFourRaisesPostamble : Obligations.ClassFourRaisesPostamble := by
  intro s b rest hb hd hx hbad
  exact raises_of_verdict hb (ne_of_eq_of_ne hd (by decide)) hx (verdict_post_eq hd (classifyAtPost_bad hbad)) rfl

/-- Settles O37: the postamble meets row 6. -/
theorem classSixRaisesDirection : Obligations.ClassSixRaisesDirection := by
  intro s rest hb hd hx hl ht
  exact raises_of_verdict hb (ne_of_eq_of_ne hd (by decide)) hx (verdict_post_eq hd (classifyAtPost_direction hl ht)) rfl

/-- Settles O38: the postamble meets row 7. -/
theorem classSevenRaisesFrameLen : Obligations.ClassSevenRaisesFrameLen := by
  intro s rest hb hd hx hl ht
  have hrow : classifyAtPost 0 s = .row7 := by
    rw [classifyAtPost_inbound (ne_of_eq_of_ne hl (by decide)) ht, if_pos (by simp [hl])]
  exact raises_of_verdict hb (ne_of_eq_of_ne hd (by decide)) hx (verdict_post_eq hd hrow) rfl

/-! ### The good ends of a run -/

/-- From `s` to `t` the wait has counted a run and begins the next with its scan (43_dispatch.md R178, R181). -/
structure WaitsOn (s t : State) : Prop where
  xstate : t.xstate = .wait
  dstate : t.dstate = .sync
  frames : t.frames = s.frames + 1
  wCmd : t.wCmd = s.wCmd
  outcome : SameOutcome s t

section
variable {s t : State} {r : Response} {l : List RxEvent}

theorem nextRun_waitsOn (ht : WaitsOn s { t with dstate := .sync }) (hp : t.params = s.params)
    (hm : s.params.maxFrames ≠ some (s.frames + 1)) : WaitsOn s (nextRun t) := by
  have hbelow : ¬t.params.maxFrames = some t.frames := by rwa [hp, ht.frames]
  rw [nextRun, if_neg hbelow]
  exact ht

/-- Whatever the end of a run makes of the block's own registers, it leaves the rest alone. -/
theorem same_of_withRx (ho : t.others = (s.withRx l).others) :
    t.rx = l ∧ t.tx = s.tx ∧ SameOperands s t ∧ SameAgents s t := by
  obtain ⟨hrx, -, htx⟩ := sameStreams_of_others ho
  obtain ⟨hop, hcmd, hplen, hpay⟩ := sameOperands_of_others ho
  obtain ⟨hparams, hsource, hagenda, hread⟩ := sameAgents_of_others ho
  exact ⟨hrx, htx, ⟨hop, hcmd, hplen, hpay⟩, ⟨hparams, hsource, hagenda, hread⟩⟩

/-- An acknowledgement ends `DECODE` (41_decode.md R134). -/
theorem endAck_completed (hx : s.xstate ≠ .wait) : Completed .ack .none s (endAck (s.withRx l)) := by
  rw [endAck_of_plain (s := s.withRx l) hx]
  exact completed_of_params _ _ rfl

/-- An acknowledgement is skipped by the wait (43_dispatch.md R181). -/
theorem endAck_waitsOn (hx : s.xstate = .wait) (hm : s.params.maxFrames ≠ some (s.frames + 1)) :
    WaitsOn s (endAck (s.withRx l)) := by
  rw [endAck_of_wait (s := s.withRx l) hx]
  exact nextRun_waitsOn ⟨hx, rfl, rfl, rfl, ⟨rfl, rfl, rfl, rfl⟩⟩ rfl hm

/-- An acknowledgement is the last frame the bound allows (43_dispatch.md R183). -/
theorem endAck_timeout (hx : s.xstate = .wait) (hm : s.params.maxFrames = some (s.frames + 1)) :
    Completed .err .timeout s (endAck (s.withRx l)) := by
  rw [endAck_of_wait (s := s.withRx l) hx, nextRun_of_bound (s := countRun (s.withRx l)) hm]
  exact completed_of_params _ _ rfl

/-- A data frame ends `DECODE` (41_decode.md R139). -/
theorem endData_completed (hx : s.xstate ≠ .wait) : Completed .data .none s (endData r (s.withRx l)) := by
  rw [endData_of_plain (s := s.withRx l) hx]
  exact completed_of_params _ _ rfl

/-- A data frame that matches ends the wait (43_dispatch.md R180). -/
theorem endData_matched (hx : s.xstate = .wait) (hc : r.cmd = s.wCmd) :
    Completed .data .none s (endData r (s.withRx l)) := by
  rw [endData_of_match (s := s.withRx l) hx hc]
  exact completed_of_params _ _ rfl

/-- A data frame that does not match is skipped (43_dispatch.md R181). -/
theorem endData_waitsOn (hx : s.xstate = .wait) (hc : r.cmd ≠ s.wCmd)
    (hm : s.params.maxFrames ≠ some (s.frames + 1)) : WaitsOn s (endData r (s.withRx l)) := by
  rw [endData_of_other (s := s.withRx l) hx hc]
  exact nextRun_waitsOn ⟨hx, rfl, rfl, rfl, ⟨rfl, rfl, rfl, rfl⟩⟩ rfl hm

/-- A data frame that does not match is the last frame the bound allows (43_dispatch.md R183). -/
theorem endData_timeout (hx : s.xstate = .wait) (hc : r.cmd ≠ s.wCmd)
    (hm : s.params.maxFrames = some (s.frames + 1)) : Completed .err .timeout s (endData r (s.withRx l)) := by
  rw [endData_of_other (s := s.withRx l) hx hc, nextRun_of_bound (s := countRun (writeResult r (s.withRx l))) hm]
  exact completed_of_params _ _ rfl

end

/-- Settles O36: the postamble meets row 5, an acknowledgement. -/
theorem classFiveAcknowledges : Obligations.ClassFiveAcknowledges := by
  intro s rest hb hd hx hl
  have hexec : exec .class5 s = .next (endAck (s.withRx rest)) :=
    exec_rowInstr_of_event hb (ne_of_eq_of_ne hd (by decide)) hx (verdict_post_eq hd (classifyAtPost_ack hl))
  obtain ⟨hrx, htx, hops, hag⟩ := same_of_withRx (endAck_others (s.withRx rest))
  have hres : SameResults s _ := sameResults_of_hostData (endAck_hostData (s.withRx rest))
  refine ⟨fun h => ⟨_, hexec, endAck_completed h, hrx, htx, hops, hres, hag⟩, fun h hm => ?_,
    fun h hm => ⟨_, hexec, endAck_timeout h hm, hrx, htx, hops, hres, hag⟩⟩
  obtain ⟨hwait, hsync, hframes, hcmd, hout⟩ := endAck_waitsOn (l := rest) h hm
  exact ⟨_, hexec, hwait, hsync, hframes, hcmd, hrx, htx, hout, hops, hres, hag⟩

/-- Settles O39: the postamble meets row 8, a data frame. -/
theorem classEightDelivers : Obligations.ClassEightDelivers := by
  intro s rest hb hd hx hl ht
  have hrow : classifyAtPost 0 s = .row8 := by
    have hne : s.len ≠ 0 := fun h => by simp [h] at hl
    rw [classifyAtPost_inbound hne ht, if_neg hl.not_gt]
  have hexec : exec .class8 s = .next (endData (response s.params (frameData s)) (s.withRx rest)) :=
    exec_rowInstr_of_event hb (ne_of_eq_of_ne hd (by decide)) hx (verdict_post_eq hd hrow)
  have hcmd : (response s.params (frameData s)).cmd = recoveredCmd (s.fd.take s.len.toNat) := extract_cmd ..
  obtain ⟨hrx, htx, hops, hag⟩ := same_of_withRx (endData_others (response s.params (frameData s)) (s.withRx rest))
  have hdel := endData_delivered (response s.params (frameData s)) (s.withRx rest)
  rw [← hcmd]
  refine ⟨fun h => ⟨_, hexec, endData_completed h, hdel, hrx, htx, hops, hag⟩,
    fun h hc => ⟨_, hexec, endData_matched h hc, hdel, hrx, htx, hops, hag⟩, fun h hc hm => ?_,
    fun h hc hm => ⟨_, hexec, endData_timeout h hc hm, hdel, hrx, htx, hops, hag⟩⟩
  obtain ⟨hwait, hsync, hframes, hw, hout⟩ := endData_waitsOn (l := rest) h hc hm
  exact ⟨_, hexec, hdel, hwait, hsync, hframes, hw, hrx, htx, hout, hops, hag⟩

/-! ### Command ids and the row `DATA` -/

/-- Settles O42: outside the wait the delivery completes the operation; there is no status byte. -/
theorem otherCommandDelivery : Obligations.OtherCommandDelivery := by
  intro s c hx
  have hexec : exec (.cmdOther c) s = .next (endData ⟨c, s.params.statusSuccess, (frameData s).drop 2⟩ s) := by
    rw [← extract_of_plain (bearing := false) (.inl rfl)]
    rfl
  have hothers := endData_others ⟨c, s.params.statusSuccess, (frameData s).drop 2⟩ s
  exact ⟨_, hexec, endData_completed (l := s.rx) hx, endData_delivered _ s, sameOperands_of_others hothers,
    sameStreams_of_others hothers, sameAgents_of_others hothers⟩

/-- Settles O43: each row delivers what the extraction gives, and the wait ends, goes on or is at its bound. -/
theorem commandRowsInWait : Obligations.CommandRowsInWait := by
  intro s i c bearing hx hi
  have hexec : exec i s = .next (endData (extract s.params bearing c (frameData s)) s) := by
    obtain ⟨rfl, rfl, rfl⟩ | ⟨rfl, rfl, rfl⟩ | ⟨rfl, rfl⟩ := hi <;> rfl
  have hcmd : (extract s.params bearing c (frameData s)).cmd = c := extract_cmd ..
  have hothers := endData_others (extract s.params bearing c (frameData s)) s
  have hdel : DeliveredAs s.params bearing c (s.fd.take s.len.toNat) _ :=
    deliveredAs_of_extract (endData_delivered (extract s.params bearing c (frameData s)) s)
  have hops := sameOperands_of_others hothers
  have hstr := sameStreams_of_others hothers
  have hag := sameAgents_of_others hothers
  refine ⟨fun hc => ⟨_, hexec, endData_matched (l := s.rx) hx (hcmd.trans hc), hdel, hops, hstr, hag⟩,
    fun hc hm => ?_, fun hc hm => ⟨_, hexec, endData_timeout (l := s.rx) hx (ne_of_eq_of_ne hcmd hc) hm, hdel, hops,
      hstr, hag⟩⟩
  obtain ⟨hwait, hsync, hframes, hw, hout⟩ := endData_waitsOn (l := s.rx) hx (ne_of_eq_of_ne hcmd hc) hm
  exact ⟨_, hexec, hdel, hwait, hsync, hframes, hw, hout, hops, hstr, hag⟩

/-- Settles O45: the response is written in the step that completes. -/
theorem kindDataDelivers : Obligations.KindDataDelivers := fun s =>
  ⟨_, rfl, completed_of_params .data .none rfl, (writeResult_delivered _ s).congr rfl, ⟨rfl, rfl, rfl, rfl⟩,
    ⟨rfl, rfl, rfl⟩, ⟨rfl, rfl, rfl, rfl⟩⟩

end Sys2Proof.Machine
end

/-! # The decoder's transitions

What a running decoder makes of its next event (42_decode_fsm.md R151 to R159): the first step of `DECODE`, a silent
source, a read failure, and the next byte in each state before the postamble. -/

section
namespace Sys2Proof.Machine

/-! ### The row a byte meets, and the byte that is stored -/

section
variable {s s' : State} {b : Byte} {rest : List RxEvent}

/-- No byte is tested before the body (42_decode_fsm.md R154, R155). -/
theorem verdict_before_body (hd : s.dstate = .sync ∨ s.dstate = .hdr) : verdict s (.byte b) = none := by
  obtain h | h := hd <;> rw [verdict, h]

/-- At the last body byte the length checksum is tested (42_decode_fsm.md R156). -/
theorem verdict_body_test (hd : s.dstate = .body) (hi : s.idx.toNat = s.len.toNat) :
    verdict s (.byte b) = if s.len + (if s.idx = 0 then b else s.lcs) = 0 then none else some .row2 := by
  simp only [verdict_body_last hd hi.not_lt, lcsGood, storeBody_lcs, beq_iff_eq]

/-- The data checksum is tested at its own byte (42_decode_fsm.md R157). -/
theorem verdict_dcs_test (hd : s.dstate = .dcs) :
    verdict s (.byte b) = if sum8 (s.fd.take s.len.toNat) + b = 0 then none else some .row3 := by
  simp only [verdict_dcs hd, dcsGood, frameData, beq_iff_eq]

theorem storeBody_first (hi : s.idx = 0) : storeBody b s = { s with lcs := b } := if_pos hi

theorem storeBody_later (hi : s.idx ≠ 0) : storeBody b s = { s with fd := s.fd.set (s.idx.toNat - 1) b } := if_neg hi

/-- The agenda decides nothing of what an event meets. -/
theorem verdict_withAgenda (a : List Turn) : verdict (s.withAgenda a) = verdict s :=
  verdict_congr ⟨rfl, rfl, rfl, rfl, rfl⟩

/-! ### The step on a byte -/

theorem step_of_no_verdict (hm : BlockMoves s s') (hb : s.busy = true) (hd : s.dstate ≠ .idle)
    (hx : s.rx = .byte b :: rest) (hv : verdict s (.byte b) = none) : step s = .next (advance b (s'.withRx rest)) :=
  step_of_byte hm hb hd hx ((pendingRow_of_event hb hd hx).trans hv)

/-- An event that meets the row of an error completes the operation with it (60_exceptions.md R215); an `fce` at the
agenda's head is used up. -/
theorem step_raises_of_verdict {e : RxEvent} {r : ClassRow} {c : ErrCode} (hm : BlockMoves s s') (hb : s.busy = true)
    (hd : s.dstate ≠ .idle) (hx : s.rx = e :: rest) (hv : verdict s e = some r)
    (hr : rowEnd (s'.withRx rest) r = .err c) :
    ∃ t, step s = .next t ∧ Completed .err c s t ∧ t.rx = rest ∧ t.tx = s.tx ∧ SameOperands s t ∧ SameResults s t ∧
      SameAgents s' t := by
  have hstep := step_of_pendingRow hm ((pendingRow_of_event hb hd hx).trans hv)
  obtain ⟨a, rfl⟩ := hm.eq_withAgenda
  have hv' : verdict (s.withAgenda a) e = some r := by rwa [verdict_withAgenda]
  obtain ⟨t, hexec, hc, hrx, htx, hops, hres, hag⟩ := raises_of_verdict (s := s.withAgenda a) hb hd hx hv' hr
  exact ⟨t, hstep.trans hexec, { hc with }, hrx, htx, { hops with }, { hres with }, hag⟩

/-- A body byte before the last is stored (42_decode_fsm.md R156). -/
theorem step_of_body_more (hm : BlockMoves s s') (hb : s.busy = true) (hd : s.dstate = .body)
    (hx : s.rx = .byte b :: rest) (hi : s.idx.toNat < s.len.toNat) :
    step s = .next { storeBody b (s'.withRx rest) with idx := s.idx + 1 } := by
  rw [step_of_no_verdict hm hb (ne_of_eq_of_ne hd (by decide)) hx (verdict_body_more hd hi)]
  obtain ⟨a, rfl⟩ := hm.eq_withAgenda
  rw [advance_body_more (s := (s.withAgenda a).withRx rest) hd hi]
  rfl

/-- The last body byte is stored, and where the length checksum is good, `LEN` says what comes next (R156). -/
theorem step_of_body_last (hm : BlockMoves s s') (hb : s.busy = true) (hd : s.dstate = .body)
    (hx : s.rx = .byte b :: rest) (hi : s.idx.toNat = s.len.toNat)
    (hsum : s.len + (if s.idx = 0 then b else s.lcs) = 0) :
    step s = .next { storeBody b (s'.withRx rest) with dstate := if s.len = 0 then .post else .dcs } := by
  rw [step_of_no_verdict hm hb (ne_of_eq_of_ne hd (by decide)) hx (by rw [verdict_body_test hd hi, if_pos hsum])]
  obtain ⟨a, rfl⟩ := hm.eq_withAgenda
  rw [advance_body_last (s := (s.withAgenda a).withRx rest) hd hi.not_lt]
  rfl

end

/-! ### The decoder's states -/

/-- Settles O14: the waiting decoder's step leaves the state as it is, so every run does. -/
theorem silentSourceHangs : Obligations.SilentSourceHangs := by
  intro s ha hb hd hx hs k
  have hm : BlockMoves s s := by
    obtain ha | ⟨rest, ha⟩ := ha
    · exact .alone ha
    · exact .awaited rest ha hb
  exact run_of_still (step_of_silence hm hb hd hx hs) k

/-- Settles O21: the first step of `DECODE` is that write. -/
theorem decodeBeginsScan : Obligations.DecodeBeginsScan := fun _ => rfl

/-- Settles O32: a read failure meets row 1 in every state of a running decoder. -/
theorem classOneRaisesRx : Obligations.ClassOneRaisesRx := by
  intro s rest hb hd hx
  exact raises_of_verdict hb hd hx (r := .row1) (verdict_err hd) rfl

/-- Settles O47: a byte in the scan meets no row. -/
theorem syncTakesByte : Obligations.SyncTakesByte := by
  intro s s' b rest hm hb hd hx
  have hstep := step_of_no_verdict hm hb (ne_of_eq_of_ne hd (by decide)) hx (verdict_before_body (.inl hd))
  obtain ⟨a, rfl⟩ := hm.eq_withAgenda
  refine ⟨fun hne => ?noise, fun h0 => ?preamble⟩
  case noise => rw [hstep, advance_sync_noise (s := (s.withAgenda a).withRx rest) hd hne]; rfl
  case preamble => rw [hstep, advance_sync_preamble (s := (s.withAgenda a).withRx rest) hd h0]; rfl

/-- Settles O48: a byte of the header meets no row. -/
theorem headerTakesByte : Obligations.HeaderTakesByte := by
  intro s s' b rest hm hb hd hx
  have hstep := step_of_no_verdict hm hb (ne_of_eq_of_ne hd (by decide)) hx (verdict_before_body (.inr hd))
  obtain ⟨a, rfl⟩ := hm.eq_withAgenda
  refine ⟨fun hi => ?startCode, fun hi => ?length⟩
  case startCode =>
    have hlt : s.idx.toNat < 2 := by obtain h | h := hi <;> simp [h]
    rw [hstep, advance_hdr_early (s := (s.withAgenda a).withRx rest) hd hlt]
    rfl
  case length =>
    have h2 : s.idx.toNat = 2 := by simp [hi]
    rw [hstep, advance_hdr_len (s := (s.withAgenda a).withRx rest) hd h2]
    rfl

/-- Settles O49: a byte before the last is stored; the last one is stored and passes the test, or meets row 2. -/
theorem bodyTakesByte : Obligations.BodyTakesByte := by
  intro s s' b rest hm hb hd hx
  obtain ⟨a, rfl⟩ := hm.eq_withAgenda
  refine ⟨fun hi h0 => ?first, fun hi hne => ?later, fun hi h0 hsum => ?empty, fun hi hne hsum => ?last,
    fun hi hsum => ?bad⟩
  case first =>
    rw [step_of_body_more hm hb hd hx hi, storeBody_first (s := (s.withAgenda a).withRx rest) h0]
    rfl
  case later =>
    rw [step_of_body_more hm hb hd hx hi, storeBody_later (s := (s.withAgenda a).withRx rest) hne]
    rfl
  case empty =>
    have hlen : s.len = 0 := BitVec.eq_of_toNat_eq (by rw [← hi, h0]; rfl)
    rw [step_of_body_last hm hb hd hx hi (by rwa [if_pos h0]), storeBody_first (s := (s.withAgenda a).withRx rest) h0,
      if_pos hlen]
    rfl
  case last =>
    have hlen : s.len ≠ 0 := fun h => hne (BitVec.eq_of_toNat_eq (by rw [hi, h]; rfl))
    rw [step_of_body_last hm hb hd hx hi (by rwa [if_neg hne]), storeBody_later (s := (s.withAgenda a).withRx rest) hne,
      if_neg hlen]
    rfl
  case bad =>
    exact step_raises_of_verdict hm hb (ne_of_eq_of_ne hd (by decide)) hx (r := .row2)
      (by rw [verdict_body_test hd hi, if_neg hsum]) rfl

/-- Settles O50: the byte passes the test, or meets row 3. -/
theorem checksumTakesByte : Obligations.ChecksumTakesByte := by
  intro s s' b rest hm hb hd hx
  have hrun : s.dstate ≠ .idle := ne_of_eq_of_ne hd (by decide)
  refine ⟨fun hsum => ?good, fun hsum => ?bad⟩
  case good =>
    rw [step_of_no_verdict hm hb hrun hx (by rw [verdict_dcs_test hd, if_pos hsum])]
    obtain ⟨a, rfl⟩ := hm.eq_withAgenda
    rw [advance_dcs (s := (s.withAgenda a).withRx rest) hd]
    rfl
  case bad =>
    exact step_raises_of_verdict hm hb hrun hx (r := .row3) (by rw [verdict_dcs_test hd, if_neg hsum]) rfl

end Sys2Proof.Machine
end

/-! # `SENDWAIT` from its start to its end

The send phase in one step (43_dispatch.md R175, R177), then the loop on the events that wait, none coming after them, held
against the procedure (R175, R179 to R184). -/

section
namespace Sys2Proof.Machine

variable {s : State}

/-! ### The send phase -/

/-- The demultiplexer's registers, at other values. -/
def State.withDemux (s : State) (x : XState) (w : Byte) (n : Nat) : State := { s with xstate := x, wCmd := w, frames := n }

theorem latchCommand_eq_withDemux (s : State) : latchCommand s = s.withDemux .send s.cCmd 0 := rfl

theorem txFrame_withDemux (f : List Byte) (s : State) (x : XState) (w : Byte) (n : Nat) :
    txFrame f (s.withDemux x w n) = (txFrame f s).withDemux x w n := by
  cases h : s.txAns <;> simp [txFrame, dropTxEvent, nextTxEvent, State.withDemux, h]

/-- A completion writes or frees the demultiplexer's registers, whatever they held (43_dispatch.md R176, U3). -/
theorem complete_withDemux (hq : s.params.hasDemux = true) (k : Kind) (e : ErrCode) (x : XState) (w : Byte) (n : Nat) :
    complete k e (s.withDemux x w n) = complete k e s := by
  simp [complete, forget, State.withDemux, hq]

/-- What `SENDWAIT` has sent, it has sent as `ENCODE` does; beside that it has written its own registers only. -/
theorem sentState_eq_withDemux (s : State) :
    sentState s = (txFrame (encodeFrame s.cCmd (payload s)) s).withDemux .wait s.cCmd 0 := by
  rw [sentState, latchCommand_eq_withDemux, txFrame_withDemux]
  rfl

theorem sentState_hostData (s : State) : (sentState s).hostData = s.hostData :=
  txFrame_hostData (encodeFrame s.cCmd (payload s)) (latchCommand s)

theorem sentState_others (s : State) : (sentState s).others = (txFrame (encodeFrame s.cCmd (payload s)) s).others := by
  rw [sentState_eq_withDemux]
  rfl

theorem exec_sendwait_overlong (hq : s.params.hasDemux = true) (hp : 253 < s.cPlen.toNat) :
    exec .sendwait s = .next (complete .err .payload s) := by
  have hsend : sendPhase (latchCommand s) = complete .err .payload (latchCommand s) := if_pos hp
  rw [exec, execSendwait, if_pos hq, hsend, latchCommand_eq_withDemux, complete_withDemux hq]

theorem exec_sendwait (hq : s.params.hasDemux = true) (hp : s.cPlen.toNat ≤ 253) :
    exec .sendwait s = .next (writeFrame true (encodeFrame s.cCmd (payload s)) (latchCommand s)) := by
  have hsend : sendPhase (latchCommand s) = writeFrame true (encodeFrame s.cCmd (payload s)) (latchCommand s) :=
    if_neg (Nat.not_lt.2 hp)
  rw [exec, execSendwait, if_pos hq, hsend]

theorem exec_sendwait_ok (hq : s.params.hasDemux = true) (hp : s.cPlen.toNat ≤ 253)
    (hn : nextTxEvent s = .answer .ok) : exec .sendwait s = .next (nextRun (sentState s)) := by
  rw [exec_sendwait hq hp, writeFrame_ok_true (s := latchCommand s) _ hn]
  rfl

theorem exec_sendwait_fail (hq : s.params.hasDemux = true) (hp : s.cPlen.toNat ≤ 253) {n : Nat}
    (hn : nextTxEvent s = .answer (.fail n)) :
    exec .sendwait s = .next (complete .err .tx (txFrame (encodeFrame s.cCmd (payload s)) s)) := by
  rw [exec_sendwait hq hp, writeFrame_fail (s := latchCommand s) true _ n hn, latchCommand_eq_withDemux,
    txFrame_withDemux, complete_withDemux (by rwa [txFrame_params])]

theorem nextRun_txAns (s : State) : (nextRun s).txAns = s.txAns := by
  obtain ⟨-, h⟩ | ⟨-, h⟩ := nextRun_cases s <;> simp [h]

/-- With `MAX_FRAMES = 0` the first turn of the loop is the timeout (43_dispatch.md R183). -/
theorem nextRun_sentState_of_bound (hq : s.params.hasDemux = true) (hm : s.params.maxFrames = some 0) :
    nextRun (sentState s) = complete .err .timeout (txFrame (encodeFrame s.cCmd (payload s)) s) := by
  have hbound : (sentState s).params.maxFrames = some (sentState s).frames := by simp [sentState, hm]
  rw [nextRun_of_bound hbound, sentState_eq_withDemux, complete_withDemux (by rwa [txFrame_params])]

/-- Settles O22: the send phase is `ENCODE`'s write, whose `Ok` is followed by the first turn of the loop. -/
theorem sendwaitSends : Obligations.SendwaitSends := by
  intro s hq
  refine ⟨fun hp hn hm => ?waits, fun hp hn hm => ?bound, fun hp n hn => ?fails,
    fun hp => completes_of_exec (exec_sendwait_overlong hq hp)⟩
  case waits =>
    have hbelow : (sentState s).params.maxFrames ≠ some (sentState s).frames := by simpa [sentState] using hm
    obtain ⟨hsync, ⟨hwait, hcmd, hframes⟩, hout⟩ := nextRun_of_below hbelow
    have hsent : SameOutcome s (sentState s) := by constructor <;> simp [sentState]
    have hans : (nextRun (sentState s)).txAns = s.txAns.tail := by simp [nextRun_txAns, sentState]
    obtain ⟨hops, hres, hrx, htx, hag⟩ :=
      same_of_txFrame ((nextRun_hostData _).trans (sentState_hostData s))
        ((nextRun_others _).trans (sentState_others s)) (take_sentCount_of_ok _ hn)
    exact ⟨_, exec_sendwait_ok hq hp hn, hwait, hsync, hcmd.trans (by simp [sentState]),
      hframes.trans (by simp [sentState]), hsent.trans hout, hops, hres, hrx, htx, hag, hans⟩
  case bound =>
    refine completes_of_sent ?_ (take_sentCount_of_ok _ hn)
    rw [exec_sendwait_ok hq hp hn, nextRun_sentState_of_bound hq hm]
    rfl
  case fails =>
    exact completes_of_sent (exec_sendwait_fail hq hp hn) (by rw [hn]; rfl)

/-! ### The first step and the rest -/

/-- The operation's first step, made in `s`, leads to `u` and takes no event; `W` is how the procedure goes on there. -/
structure Begins (s : State) (tx : List Byte) (x : XState) (W : List RxEvent → WaitResult) (u : State) : Prop where
  step : step s = .next u
  rx : u.rx = s.rx
  source : u.source = s.source
  goesOn : GoesOn s tx x u W

section
variable {u : State} {tx : List Byte} {x : XState} {W : List RxEvent → WaitResult} {slot : Option Response}

/-- An operation whose procedure ends on the events that wait makes its first step and one step for each event, and ends as
the procedure does. -/
theorem Begins.run_of_ended (h : Begins s tx x W u) {e : RunEnd} {rest : List RxEvent}
    (he : W s.rx = .ended e slot rest) :
    ∃ t, Host.Core.run core (1 + (s.rx.length - rest.length)) s = .next t ∧ t.rx = rest ∧ t.source = s.source ∧
      Finished s tx e slot t := by
  rw [← h.rx] at he
  obtain ⟨n, t, hlen, hrun, hrest, hsrc, hf⟩ := h.goesOn.run_of_ended he
  have hn : s.rx.length - rest.length = n := Nat.sub_eq_of_eq_add (h.rx ▸ hlen)
  refine ⟨t, ?_, hrest, hsrc.trans h.source, hf⟩
  rw [hn, Nat.add_comm 1, run_succ_of_step h.step, hrun]

/-- An operation whose procedure hangs on the events that wait takes them all, and then waits at a silent source. -/
theorem Begins.run_of_hang (h : Begins s tx x W u) (he : W s.rx = .hang slot) (hs : s.source = .silent) (k : Nat) :
    ∃ t, Host.Core.run core (1 + s.rx.length + k) s = .next t ∧ t.rx = [] ∧ Runs s tx x slot t := by
  rw [← h.rx] at he
  obtain ⟨t, hrun, hnil, hsrc, hr⟩ := h.goesOn.run_of_hang he
  have hall : Host.Core.run core (s.rx.length + 1) s = .next t := by rw [run_succ_of_step h.step, ← h.rx, hrun]
  refine ⟨t, ?_, hnil, hr⟩
  rw [Nat.add_comm 1, run_add hall, hr.run_of_silence hnil (hsrc.trans (h.source.trans hs))]

end

/-- A `SENDWAIT` that has been started and has made no step yet, and whose frame write will be answered `Ok`. -/
structure SendwaitStarted (s : State) : Prop where
  agenda : s.agenda = []
  busy : s.busy = true
  dstate : s.dstate = .idle
  xstate : s.xstate = .idle
  op : s.op = 3
  hasDemux : s.params.hasDemux = true
  plen : s.cPlen.toNat ≤ 253
  answer : ∃ ans, s.txAns = .answer .ok :: ans
  mem : Memory.wf s = true

/-- The loop's first turn after the send phase is the wait phase of the procedure (43_dispatch.md R175). -/
theorem SendwaitStarted.goesOn (h : SendwaitStarted s) :
    GoesOn s (s.tx ++ encodeFrame s.cCmd (s.cPay.take s.cPlen.toNat)) .wait (nextRun (sentState s))
      (waitPhase s.params s.cCmd) := by
  obtain ⟨ans, ht⟩ := h.answer
  obtain ⟨-, -, hf, -⟩ := (memory_wf_iff s).1 h.mem
  have hres : SameResults s (sentState s) := by constructor <;> simp [sentState]
  have hgo := nextRun_goesOn (slot := none) (sentState_beside h.agenda ht) (by simp [sentState, h.busy])
    (by simp [sentState, hf]) rfl ⟨fun _ => hres, nofun⟩
  have hw : waitFrom (sentState s).params (sentState s).wCmd (sentState s).frames none = waitPhase s.params s.cCmd := by
    funext evs
    simp [sentState, waitPhase_eq]
  exact hw ▸ hgo

theorem SendwaitStarted.begins (h : SendwaitStarted s) :
    Begins s (s.tx ++ encodeFrame s.cCmd (s.cPay.take s.cPlen.toNat)) .wait (waitPhase s.params s.cCmd)
      (nextRun (sentState s)) := by
  obtain ⟨ans, ht⟩ := h.answer
  have hop : decodeOp s.op = .sendwait := by rw [h.op]; rfl
  have hstr := sameStreams_of_others (nextRun_others (sentState s))
  refine ⟨?_, hstr.rx.trans (by simp [sentState]), hstr.source.trans (by simp [sentState]), h.goesOn⟩
  rw [step_of_started (.alone h.agenda) h.busy h.dstate h.xstate, hop]
  exact exec_sendwait_ok h.hasDemux h.plen (nextTxEvent_cons _ ans ht)

/-- Settles O53: after the send phase the machine follows the loop to its end, or to the end of the events. -/
theorem sendwaitRefinesProcedure : Obligations.SendwaitRefinesProcedure := by
  intro s ans ha hb hd hx ho hq hp ht hm
  have hbegins := SendwaitStarted.begins ⟨ha, hb, hd, hx, ho, hq, hp, ⟨ans, ht⟩, hm⟩
  cases he : waitPhase s.params s.cCmd s.rx with
  | ended e slot rest =>
    obtain ⟨t, hrun, hrest, hsrc, hf⟩ := hbegins.run_of_ended he
    obtain ⟨hack, hdata⟩ := waitLoop_ended he
    refine ⟨t, hrun, hrest, hf.beside.tx, hsrc, hf.beside.operands, hf.holds.same, hf.holds.delivered, ?_⟩
    cases e with
    | ack => exact hack rfl
    | data r => exact ⟨hf.completed, hdata r rfl⟩
    | err c => exact hf.completed
  | hang slot =>
    intro hs k
    obtain ⟨t, hrun, hnil, hr⟩ := hbegins.run_of_hang he hs k
    exact ⟨t, hrun, hr.busy, hnil, hr.beside.tx, hr.holds.same, hr.holds.delivered⟩

end Sys2Proof.Machine
end

/-! # How the wait ends with `DATA`

A running operation has the outcome `NONE` until it completes (10_state.md R23, R25); inside the wait only a matching data
frame completes it with `DATA` (43_dispatch.md R180, R185). -/

section
namespace Sys2Proof.Machine

variable {s t : State}

/-- The turn of the loop writes no outcome `DATA`. -/
theorem nextRun_rKind_ne_data (hk : s.rKind ≠ .data) : (nextRun s).rKind ≠ .data := by
  obtain ⟨-, h⟩ | ⟨-, h⟩ := nextRun_cases s <;> rw [h]
  · exact nofun
  · exact hk

theorem advance_rKind (b : Byte) (s : State) : (advance b s).rKind = s.rKind := by
  obtain ⟨d, i, n, l, f, h⟩ := advance_eq b s
  rw [h]
  rfl

/-- Inside the wait a run ends the operation with `DATA` only when it read a data frame that matches. -/
theorem endRun_data {e : RunEnd} (hx : s.xstate = .wait) (hk : s.rKind ≠ .data) (h : (endRun e s).rKind = .data) :
    ∃ r, e = .data r ∧ r.cmd = s.wCmd := by
  cases e with
  | err c => cases h
  | ack =>
    have hnot : (endAck s).rKind ≠ .data := by
      rw [endAck_of_wait hx]
      exact nextRun_rKind_ne_data hk
    exact absurd h hnot
  | data r =>
    refine ⟨r, rfl, by_contra fun hc => ?_⟩
    have hnot : (endData r s).rKind ≠ .data := by
      rw [endData_of_other hx hc]
      exact nextRun_rKind_ne_data hk
    exact hnot h

/-- Only row 8 is a data frame. -/
theorem rowEnd_data {r : ClassRow} {q : Response} (h : rowEnd s r = .data q) :
    r = .row8 ∧ q = response s.params (frameData s) := by
  cases r <;> cases h
  exact ⟨rfl, rfl⟩

/-- Row 8 in wire terms: a good postamble after an inbound frame with `LEN >= 2` (41_decode.md R133 to R136). -/
theorem verdict_row8 {e : RxEvent} (h : verdict s e = some .row8) :
    s.dstate = .post ∧ e = .byte 0 ∧ 2 ≤ s.len.toNat ∧ s.fd.getD 0 0 = 0xD5 := by
  have hd := dstate_of_verdict_row8 h
  cases e with
  | err => simp [verdict, hd] at h
  | byte b =>
    rw [verdict_post hd, Option.some.injEq, classifyAtPost] at h
    split_ifs at h with hb hl ht h2
    exact ⟨hd, congrArg _ (not_not.1 hb), Nat.not_lt.1 h2, not_not.1 ht⟩

/-- The echoed id is one above the recovered id (30_encoding.md R89). -/
theorem fd_of_response_cmd {w : Byte} (hl : 2 ≤ s.len.toNat) (h : (response s.params (frameData s)).cmd = w) :
    s.fd.getD 1 0 = w + 1 := by
  have hecho : (frameData s).getD 1 0 = s.fd.getD 1 0 := by
    simp [frameData, List.getD_eq_getElem?_getD, show 1 < s.len.toNat by omega]
  rw [response, extract_cmd, recoveredCmd, hecho] at h
  exact eq_add_of_sub_eq h

/-- A move of the block that ends the wait with `DATA` is row 8 with the command id waited for. -/
theorem BlockStep.data_of_wait (h : BlockStep s t) (hx : s.xstate = .wait) (hd : s.dstate ≠ .idle)
    (hk : s.rKind ≠ .data) (ht : t.rKind = .data) :
    pendingRow s = some .row8 ∧ t = rowOutcome .row8 (consume s) ∧ (response s.params (frameData s)).cmd = s.wCmd := by
  cases h with
  | still => exact absurd ht hk
  | nop | overlong | encode | decode | sendwait | badOp | sending | turning => contradiction
  | byte b => exact absurd ((advance_rKind b (consume s)).symm.trans ht) hk
  | row r hr =>
    rw [rowOutcome_eq_endRun] at ht
    obtain ⟨q, hq, hcmd⟩ := endRun_data (s := consume s) hx hk ht
    obtain ⟨rfl, rfl⟩ := rowEnd_data hq
    exact ⟨hr, rfl, hcmd⟩

/-- While an operation runs no host act writes an outcome `DATA`. -/
theorem hostStep_rKind_ne_data {a : HostAct} (hb : s.busy = true) (hk : s.rKind ≠ .data) (h : hostStep a s = .next t) :
    t.rKind ≠ .data := by
  cases a with
  | writeOp | writeCmd | writePlen | writePay => simp [operandWrite_eq_next_iff.1 h |>.1] at hb
  | start =>
    cases h
    rwa [hostStart_of_busy hb]
  | read r =>
    cases h
    unfold hostReadReg
    split <;> exact hk
  | reset =>
    cases h
    exact nofun

/-- The wait runs with the outcome `NONE`. -/
theorem Inv.waiting (h : Inv s) (hx : s.xstate = .wait) : s.busy = true ∧ s.dstate ≠ .idle ∧ s.rKind ≠ .data := by
  have hb : s.busy = true := by
    by_contra hn
    obtain ⟨-, hidle⟩ := h.idle (Bool.eq_false_of_not_eq_true hn)
    simp [hidle] at hx
  obtain ⟨-, hd, -⟩ := h.waitRun hx
  obtain ⟨hk, -⟩ := h.cleared hb
  exact ⟨hb, hd, by simp [hk]⟩

/-- Settles O8: only the block writes an outcome `DATA`, and inside the wait only by row 8 with the command id waited for. -/
theorem waitEndsOnlyWithMatch : Obligations.WaitEndsOnlyWithMatch := by
  intro s t hinv hx h ht
  obtain ⟨hb, hd, hk⟩ := hinv.waiting hx
  cases moved_of_step h with
  | answer | awaited | arrival => exact absurd ht hk
  | host a rest ha hh => exact absurd ht (hostStep_rKind_ne_data (s := s.withAgenda rest) hb hk hh)
  | block a hs =>
    obtain ⟨hr, rfl, hcmd⟩ := hs.data_of_wait hx hd hk ht
    obtain ⟨-, -, e, rest, hrx, hv⟩ := pendingRow_eq_some hr
    obtain ⟨hpost, rfl, hl, htfi⟩ := verdict_row8 hv
    have hend : rowOutcome .row8 (consume (s.withAgenda a)) = _ :=
      endData_of_match (s := consume (s.withAgenda a)) hx hcmd
    refine ⟨hpost, ⟨rest, hrx⟩, hl, htfi, fd_of_response_cmd hl hcmd, ?_, ?_⟩ <;> rw [hend]
    · exact hcmd
    · rfl

end Sys2Proof.Machine
end

/-! # The error rows

Raising an error is the completion with `ERR` and its code (60_exceptions.md R215); it changes nothing else that the host or
another agent sees (R216). -/

section
namespace Sys2Proof.Machine

/-- The row of an error raises it. The row of `E_NONE`, which is none, completes with `NONE` instead. -/
theorem exec_errRow {e : ErrCode} (he : e ≠ .none) (s : State) : exec (errRow e) s = .next (raise e s) := by
  cases e with
  | none => contradiction
  | tx | rx | lcs | dcs | postamble | direction | frameLen | payload | timeout | badOp => rfl

/-- Settles O46: every error's row is its raise, and a raise is a completion. -/
theorem errorRowsRaise : Obligations.ErrorRowsRaise := by
  intro s e he
  refine completes_of_exec (e := e) ?_
  rw [exec_errRow he, raise_eq]

end Sys2Proof.Machine
end

/-! # The reset input

Reset gives every register its reset value, whether the host makes it or it strikes during a frame's write
(70_reset_and_hazards.md R241). -/

section
namespace Sys2Proof.Machine

variable {s : State}

theorem resetInput_resetRegisters (s : State) : ResetRegisters (resetInput s) := by constructor <;> rfl

/-- A write that reset cuts has put the first `n` bytes of its frame on the TX stream, and touches the RX stream no more than
reset does. -/
theorem writeFrame_cut_resets (w : Bool) (f : List Byte) {n : Nat} (hn : nextTxEvent s = .cut n) :
    ResetRegisters (writeFrame w f s) ∧ (writeFrame w f s).rx = s.rx ∧ (writeFrame w f s).source = s.source ∧
      (writeFrame w f s).tx = s.tx ++ f.take n := by
  rw [writeFrame_cut w f n hn]
  refine ⟨resetInput_resetRegisters _, txFrame_rx s f, txFrame_source s f, ?_⟩
  rw [resetInput_tx, txFrame_tx, hn, sentCount]

/-- Settles O2: the host's reset is the reset input itself, and the three frame writes end in it when they are cut. -/
theorem resetInputSetsRegisters : Obligations.ResetInputSetsRegisters := by
  refine ⟨fun s rest ha => ?host, fun s n hp hn => ?encode, fun s n hq hp hn => ?sendwait, fun s c p n hp hn => ?frame⟩
  case host =>
    exact ⟨_, step_of_host ha, resetInput_resetRegisters _, ⟨rfl, rfl, rfl⟩, rfl, rfl⟩
  case encode => exact ⟨_, exec_encode hp, writeFrame_cut_resets _ _ hn⟩
  case sendwait => exact ⟨_, exec_sendwait hq hp, writeFrame_cut_resets (s := latchCommand s) _ _ hn⟩
  case frame => exact ⟨_, exec_frameOutData c hp, writeFrame_cut_resets _ _ hn⟩

end Sys2Proof.Machine
end
